-- ==== Sys2Proof/Word.lean ====
section
/-!
DEFINITION. The word types of the OQ-S3200 and the plainest facts about them (00_scope R3-R5, R7): 32-bit words,
bytes, 96-lane masks, 64-bit addresses and the 56-bit program counter.
-/

namespace Sys2Proof

/-- A 32-bit register word: one lane of a vector register, or one scalar register (05 R134). -/
abbrev Word := BitVec 32

/-- One byte of memory. -/
abbrev Byte := BitVec 8

/-- One bit per lane of a wave, lane 0 in bit 0 (05 R127). -/
abbrev LaneMask := BitVec 96

/-- A 64-bit global address as software forms it (07 R173). -/
abbrev Addr := BitVec 64

/-- A code address: bits [55:0] of a virtual address (06 R150, 14 R368). -/
abbrev Pc := BitVec 56

/-- Number of lanes of a wave (05 R125). -/
abbrev lanes : Nat := 96

end Sys2Proof
end

