-- ==== Sys2Proof/Config.lean ====
section
/-!
DEFINITION. What the manual leaves to the outside or leaves open: free values with no body, so that a claim about
them holds whatever they are (notes/assumptions 5, 7, 8, 13).
-/

namespace Sys2Proof.Config

/-- Clks that pass before the n-th read of the module time counter (16 R431; log 7). -/
opaque freeTicks : Nat → Nat

/-- The public key that images and records are signed with, as it is digested; its encoding is not given (01 R15; log 8). -/
opaque publicKey : List Byte

/-- Modulus and exponent of an encoded RSA-4096 key (01 R15; log 8). -/
opaque keyModulus : List Byte → Nat
opaque keyExponent : List Byte → Nat

/-- Salt bytes of the PSS signatures, which the manual does not give (01 R15; log 8). -/
opaque pssSalt : Nat

/-- The SHA-512 digest of the public key that the boot ROM holds (01 R15; log 8). -/
opaque romKeyDigest : BitVec 512

/-- The digest that an image carries for itself, whose mismatch is RCV_STAT.reason 0x01 (01 R22; log 8). -/
opaque imageDigest : List Byte → BitVec 512

/-- The section of an image for a die kind: 0 compute, 1 memory, 2 I/O, 3 trust; no layout is given (01 R15; log 8). -/
opaque imageSection : List Byte → Nat → List Byte

/-- What a rejected record or image leaves in the measurement log: type (0 the image), version, reason (01 R19; log 8). -/
opaque rejectionBytes : Nat → Nat → Nat → List Byte

/-- The memory-encryption key that Trailhead generates for the n-th delivery (01 R24; log 8). -/
opaque memoryKey : Nat → BitVec 512

/-- The AES-256-XTS data unit that a line of a memory die lies in, as its 128-bit number and the line's first block in it: neither the
size of the units nor their numbers are given (01 R24; log 8). -/
opaque dataUnit : Nat → Nat × Nat

/-- The version in an image's signed header (01 R19; log 8). -/
opaque imageVersion : List Byte → Nat

/-- The signature that an image carries (01 R15; log 8). -/
opaque imageSignature : List Byte → List Byte

/-- The channel that holds a byte of a memory die (01 R7, R39: 16 channels, no map given; log 13). -/
opaque channelOf : Nat → Nat

/-- The set of a memory-side cache that a line falls in (07 R185: 16-way set associative, no index given; log 13). -/
opaque mcacheSet : Nat → Nat

/-- The certificate chain of the SPDM responder (01 R23; log 8). -/
opaque spdmCertificate : List Byte

/-- Bytes of an SPDM response that the manual does not give, for the n-th request (01 R23; log 8). -/
opaque spdmFree : Nat → List Byte

end Sys2Proof.Config
end

