-- ==== Sys2Proof/Machine/Table.lean ====
section
/-!
DEFINITION. Tables: a sparse map from Nat to a value with a default, held as a list of key and value pairs, keys
rising, no entry equal to the default. Register files, tiles, flags and memory are tables.
-/

namespace Sys2Proof

/-- A sparse map; an unlisted key reads as the default its accessor is given. -/
abbrev Tab (α : Type) := List (Nat × α)

namespace Tab

variable {α : Type}

/-- The value of a key, or the default. -/
def get (d : α) : Tab α → Nat → α
  | [], _ => d
  | (k', v) :: t, k => if k' = k then v else get d t k

/-- The table without a key. -/
def del : Tab α → Nat → Tab α
  | [], _ => []
  | (k', v) :: t, k => if k' = k then del t k else (k', v) :: del t k

/-- The table with a listed key, in its place by rising key. -/
def ins : Tab α → Nat → α → Tab α
  | [], k, v => [(k, v)]
  | (k', v') :: t, k, v =>
    if k' < k then (k', v') :: ins t k v
    else if k' = k then (k, v) :: t
    else (k, v) :: (k', v') :: t

/-- The table with a key set; setting the default removes the entry. -/
def put [DecidableEq α] (d : α) (t : Tab α) (k : Nat) (v : α) : Tab α :=
  if v = d then t.del k else t.ins k v

/-- The entries of f from key i on, n keys, less those equal to the default. -/
def build [DecidableEq α] (d : α) (f : Nat → α) : Nat → Nat → Tab α
  | _, 0 => []
  | i, n + 1 => if f i = d then build d f (i + 1) n else (i, f i) :: build d f (i + 1) n

/-- The table of f on the keys below n. -/
def ofFn [DecidableEq α] (d : α) (n : Nat) (f : Nat → α) : Tab α := build d f 0 n

/-- Keys rise strictly and no entry equals the default. -/
def wf [DecidableEq α] (d : α) : Tab α → Bool
  | [] => true
  | (k, v) :: t => decide (v ≠ d) && t.all (fun e => decide (k < e.1)) && wf d t

/-- Set the cells of a list in order, the last one of a key standing. -/
def putAll [DecidableEq α] (d : α) (t : Tab α) : List (Nat × α) → Tab α
  | [] => t
  | (k, v) :: cs => putAll d (t.put d k v) cs

end Tab
end Sys2Proof
end

