-- ==== Sys2Proof/Machine/Bits.lean ====
section
/-!
DEFINITION. Bit-field, sign-extension and byte-order helpers (00 R4, R6), and the lane helpers of 05 R127.
-/

namespace Sys2Proof

/-- Bits [hi:lo] of x as a number (00 Table 0-3). -/
def bits (x hi lo : Nat) : Nat := x / 2 ^ lo % 2 ^ (hi + 1 - lo)

/-- One bit of a number. -/
def bit (x i : Nat) : Bool := x / 2 ^ i % 2 == 1

/-- Two's-complement value of the low n bits of x (00 Table 0-3, sext). -/
def sext (x n : Nat) : Int :=
  if n = 0 then 0
  else if x % 2 ^ n < 2 ^ (n - 1) then (x % 2 ^ n : Nat) else (x % 2 ^ n : Nat) - (2 ^ n : Nat)

/-- The low n bits of an integer's two's complement. -/
def lowBits (x : Int) (n : Nat) : Nat := (x % (2 ^ n : Nat)).toNat

/-- The word of an integer, modulo 2^32. -/
def wordOf (x : Int) : Word := BitVec.ofNat 32 (lowBits x 32)

/-- n bytes of a number, lowest first (00 R4). -/
def bytesOf : Nat → Nat → List Byte
  | 0, _ => []
  | n + 1, x => BitVec.ofNat 8 x :: bytesOf n (x / 256)

/-- The number that bytes hold, lowest first (00 R4). -/
def numOf : List Byte → Nat
  | [] => 0
  | b :: t => b.toNat + 256 * numOf t

/-- The lane's bit of a mask. -/
def lane (m : LaneMask) (l : Nat) : Bool := m.getLsbD l

/-- The mask of the lanes below n for which p holds. -/
def maskFrom (p : Nat → Bool) : Nat → LaneMask
  | 0 => 0
  | n + 1 => if p n then maskFrom p n ||| BitVec.twoPow 96 n else maskFrom p n

/-- The mask of the lanes for which p holds. -/
def maskOf (p : Nat → Bool) : LaneMask := maskFrom p 96

/-- The lanes of a mask in ascending order. -/
def lanesOf (m : LaneMask) : List Nat := (List.range 96).filter (lane m)

/-- The lowest lane of a mask. -/
def lowLane (m : LaneMask) : Option Nat := (List.range 96).find? (lane m)

/-- Number of lanes of a mask. -/
def laneCount (m : LaneMask) : Nat := (List.range 96).countP (lane m)

/-- The mask word 0, 1 or 2 of a lane mask (05 R127). -/
def maskWord (m : LaneMask) (i : Nat) : Word := m.extractLsb' (32 * i) 32

/-- The lane mask of three mask words (05 R127). -/
def maskOfWords (w0 w1 w2 : Word) : LaneMask := w2 ++ w1 ++ w0

/-- Number of set bits of the low n bits. -/
def popcount (x : Nat) : Nat → Nat
  | 0 => 0
  | n + 1 => (if bit x n then 1 else 0) + popcount x n

/-- Zeros above the highest set bit of an n-bit value (14 Table 14-3). -/
def clz (x : Nat) : Nat → Nat
  | 0 => 0
  | n + 1 => if bit x n then 0 else 1 + clz x n

/-- Align a down to a multiple of n. -/
def alignDown (a n : Nat) : Nat := a - a % n

end Sys2Proof
end

