-- ==== Sys2Proof/Syntax.lean ====
section
/-!
DEFINITION. The instructions and events of the OQ-S3200: one constructor per row of the opcode table. A row with a
word carries its operand fields as the spec's encoding tables name them (13 R322-R324); a row without a word is a step
of another agent (95_what_each_step_holds), and carries what the outside or that agent gives it.
-/

namespace Sys2Proof

/-- A source operand code of formats V and S (13 R324, Table 13-6). -/
inductive Src where
  /-- Vector register v0-v127. -/
  | v (r : BitVec 7)
  /-- Scalar register s0-s63. -/
  | s (r : BitVec 6)
  /-- Integer constant 0 to 15. -/
  | nat (k : BitVec 4)
  /-- Integer constant -1 to -8: k stands for -1 - k. -/
  | neg (k : BitVec 3)
  /-- Float constant: +0.5, -0.5, +1, -1, +2, -2, +4, -4 for k = 0 to 7. -/
  | flt (k : BitVec 3)
  /-- Index operand 0xE0 to 0xE4 for k = 0 to 4 (05 R137). -/
  | idx (k : BitVec 3)
  /-- Reserved code 0xE5 to 0xFF. -/
  | resv (c : BitVec 8)
deriving DecidableEq, Repr

/-- An operand source of MMA and MMAB (16 R411). -/
inductive XSrc where
  | tile (x : BitVec 4)
  /-- Streamed from global memory through base b0-b3. -/
  | stream (b : BitVec 2)
  /-- Values 20 to 31. -/
  | resv (c : BitVec 5)
deriving DecidableEq, Repr

/-- The kinds of die of Table 1-1 that are released, throttled or heated. -/
inductive DieKind where
  | compute | memory | io | trust
deriving DecidableEq, Repr

/-- A request another module's proxy makes of this module (08 R210); the sectors of the line that what it writes or gives back flags
poisoned (01 R33; 02 R51). -/
inductive ProxyKind where
  | read | own | write (poisoned : BitVec 4) | evict (poisoned : BitVec 4)
deriving DecidableEq, Repr

/-- One constructor per row of the opcode table. -/
inductive Instr where
  /-- NOP: 14 R372. -/
  | nop
  /-- EXIT: 06 R156. -/
  | exit
  /-- WAITF: 14 R372. -/
  | waitf (f : BitVec 12)
  /-- MODE: 14 R373. -/
  | mode (a : Src) (b : Src)
  /-- YIELD: 14 R372. -/
  | yield
  /-- TRAP: 16 R428. -/
  | trap (imm : BitVec 16)
  /-- BKPT: 16 R428. -/
  | bkpt (imm : BitVec 16)
  /-- BR: 14 R370. -/
  | br (inv : Bool) (g : BitVec 3) (off : BitVec 16)
  /-- BRS_Z: 14 R369. -/
  | brsZ (n : BitVec 6) (off : BitVec 16)
  /-- BRS_NZ: 14 R369. -/
  | brsNz (n : BitVec 6) (off : BitVec 16)
  /-- JMP: 14 R369. -/
  | jmp (off : BitVec 16)
  /-- CALL: 14 R369. -/
  | call (n : BitVec 6) (off : BitVec 16)
  /-- RET: 14 R369. -/
  | ret (a : Src)
  /-- JR: 14 R369. -/
  | jr (a : Src) (b : Src)
  /-- JR_LINK: 14 R369. -/
  | jrLink (m : BitVec 6) (a : Src) (b : Src)
  /-- JX: 14 R371. -/
  | jx (d : BitVec 6) (a : Src)
  /-- JOIN_AT: 06 R151. -/
  | joinAt (l : BitVec 4) (e : Bool) (off : BitVec 18)
  /-- SLOOP: 14 R369. -/
  | sloop (n : BitVec 6) (off : BitVec 16)
  /-- TRET: 16 R429. -/
  | tret
  /-- STIME: 16 R431. -/
  | stime (d : BitVec 6) (p : Bool)
  /-- SYSR: 16 R432. -/
  | sysr (d : BitVec 6) (n : BitVec 8)
  /-- SYSW: 16 R432. -/
  | sysw (n : BitVec 8) (b : Src)
  /-- SMOV: 14 R350. -/
  | smov (d : BitVec 6) (p : Bool) (a : Src)
  /-- SMOVI: 14 R350. -/
  | smovi (d : BitVec 6) (imm : BitVec 16)
  /-- SMOVHI: 14 R350. -/
  | smovhi (d : BitVec 6) (imm : BitVec 16)
  /-- SADD: 14 R350. -/
  | sadd (d : BitVec 6) (p : Bool) (a : Src) (b : Src)
  /-- SSUB: 14 R350. -/
  | ssub (d : BitVec 6) (p : Bool) (a : Src) (b : Src)
  /-- SMUL: 14 R350. -/
  | smul (d : BitVec 6) (p : Bool) (a : Src) (b : Src)
  /-- SMULH: 14 R350. -/
  | smulh (d : BitVec 6) (p : Bool) (a : Src) (b : Src)
  /-- SMAD: 14 R350. -/
  | smad (d : BitVec 6) (p : Bool) (a : Src) (b : Src)
  /-- SDIV: 14 R351. -/
  | sdiv (d : BitVec 6) (p : Bool) (a : Src) (b : Src)
  /-- SREM: 14 R351. -/
  | srem (d : BitVec 6) (p : Bool) (a : Src) (b : Src)
  /-- SAND: 14 R350. -/
  | sand (d : BitVec 6) (p : Bool) (a : Src) (b : Src)
  /-- SOR: 14 R350. -/
  | sor (d : BitVec 6) (p : Bool) (a : Src) (b : Src)
  /-- SXOR: 14 R350. -/
  | sxor (d : BitVec 6) (p : Bool) (a : Src) (b : Src)
  /-- SNOT: 14 R350. -/
  | snot (d : BitVec 6) (p : Bool) (a : Src)
  /-- SSHL: 14 R350. -/
  | sshl (d : BitVec 6) (p : Bool) (a : Src) (b : Src)
  /-- SSHR: 14 R350. -/
  | sshr (d : BitVec 6) (p : Bool) (a : Src) (b : Src)
  /-- SSAR: 14 R350. -/
  | ssar (d : BitVec 6) (p : Bool) (a : Src) (b : Src)
  /-- SMIN: 14 R350. -/
  | smin (d : BitVec 6) (p : Bool) (a : Src) (b : Src)
  /-- SMAX: 14 R350. -/
  | smax (d : BitVec 6) (p : Bool) (a : Src) (b : Src)
  /-- SCLZ: 14 R350. -/
  | sclz (d : BitVec 6) (p : Bool) (a : Src)
  /-- SPOPC: 14 R350. -/
  | spopc (d : BitVec 6) (p : Bool) (a : Src)
  /-- SBFE: 14 R352. -/
  | sbfe (d : BitVec 6) (p : Bool) (a : Src) (b : Src)
  /-- SBFI: 14 R352. -/
  | sbfi (d : BitVec 6) (p : Bool) (a : Src) (b : Src)
  /-- SSEL: 14 R350. -/
  | ssel (d : BitVec 6) (p : Bool) (a : Src) (b : Src)
  /-- SCMP_EQ: 14 R350. -/
  | scmpEq (d : BitVec 6) (p : Bool) (a : Src) (b : Src)
  /-- SCMP_NE: 14 R350. -/
  | scmpNe (d : BitVec 6) (p : Bool) (a : Src) (b : Src)
  /-- SCMP_LT: 14 R350. -/
  | scmpLt (d : BitVec 6) (p : Bool) (a : Src) (b : Src)
  /-- SCMP_LE: 14 R350. -/
  | scmpLe (d : BitVec 6) (p : Bool) (a : Src) (b : Src)
  /-- SCMP_LTU: 14 R350. -/
  | scmpLtu (d : BitVec 6) (p : Bool) (a : Src) (b : Src)
  /-- SCMP_LEU: 14 R350. -/
  | scmpLeu (d : BitVec 6) (p : Bool) (a : Src) (b : Src)
  /-- VADD: 14 R353. -/
  | vadd (d : BitVec 7) (a : Src) (b : Src)
  /-- VSUB: 14 R353. -/
  | vsub (d : BitVec 7) (a : Src) (b : Src)
  /-- VADDC: 14 R354. -/
  | vaddc (d : BitVec 7) (a : Src) (b : Src)
  /-- VMUL: 14 R353. -/
  | vmul (d : BitVec 7) (a : Src) (b : Src)
  /-- VMULH: 14 R353. -/
  | vmulh (d : BitVec 7) (a : Src) (b : Src)
  /-- VMAD: 14 R353. -/
  | vmad (d : BitVec 7) (a : Src) (b : Src)
  /-- VAND: 14 R353. -/
  | vand (d : BitVec 7) (a : Src) (b : Src)
  /-- VOR: 14 R353. -/
  | vor (d : BitVec 7) (a : Src) (b : Src)
  /-- VXOR: 14 R353. -/
  | vxor (d : BitVec 7) (a : Src) (b : Src)
  /-- VNOT: 14 R353. -/
  | vnot (d : BitVec 7) (a : Src)
  /-- VSHL: 14 R353. -/
  | vshl (d : BitVec 7) (a : Src) (b : Src)
  /-- VSHR: 14 R353. -/
  | vshr (d : BitVec 7) (a : Src) (b : Src)
  /-- VSAR: 14 R353. -/
  | vsar (d : BitVec 7) (a : Src) (b : Src)
  /-- VSHF: 14 R353. -/
  | vshf (d : BitVec 7) (a : Src) (b : Src)
  /-- VMIN: 14 R353. -/
  | vmin (d : BitVec 7) (a : Src) (b : Src)
  /-- VMAX: 14 R353. -/
  | vmax (d : BitVec 7) (a : Src) (b : Src)
  /-- VABS: 14 R353. -/
  | vabs (d : BitVec 7) (a : Src)
  /-- VNEG: 14 R353. -/
  | vneg (d : BitVec 7) (a : Src)
  /-- VCMP: 14 R355. -/
  | vcmp (c : BitVec 4) (g : BitVec 3) (a : Src) (b : Src)
  /-- VSEL: 14 R353. -/
  | vsel (d : BitVec 7) (a : Src) (b : Src)
  /-- VCLZ: 14 R353. -/
  | vclz (d : BitVec 7) (a : Src)
  /-- VPOPC: 14 R353. -/
  | vpopc (d : BitVec 7) (a : Src)
  /-- VBFE: 14 R352. -/
  | vbfe (d : BitVec 7) (a : Src) (b : Src)
  /-- VBFI: 14 R352. -/
  | vbfi (d : BitVec 7) (a : Src) (b : Src)
  /-- VBREV: 14 R353. -/
  | vbrev (d : BitVec 7) (a : Src)
  /-- VPRMT: 14 R356. -/
  | vprmt (d : BitVec 7) (a : Src) (b : Src)
  /-- VCLMUL_LO: 14 R357. -/
  | vclmulLo (d : BitVec 7) (a : Src) (b : Src)
  /-- VCLMUL_HI: 14 R357. -/
  | vclmulHi (d : BitVec 7) (a : Src) (b : Src)
  /-- FADD: 14 R358. -/
  | fadd (d : BitVec 7) (a : Src) (b : Src)
  /-- FSUB: 14 R358. -/
  | fsub (d : BitVec 7) (a : Src) (b : Src)
  /-- FMUL: 14 R358. -/
  | fmul (d : BitVec 7) (a : Src) (b : Src)
  /-- FFMA: 14 R358. -/
  | ffma (d : BitVec 7) (a : Src) (b : Src)
  /-- FMIN: 14 R359. -/
  | fmin (d : BitVec 7) (a : Src) (b : Src)
  /-- FMAX: 14 R359. -/
  | fmax (d : BitVec 7) (a : Src) (b : Src)
  /-- FCMP: 14 R355. -/
  | fcmp (c : BitVec 4) (g : BitVec 3) (a : Src) (b : Src)
  /-- FCLASS: 14 R360. -/
  | fclass (d : BitVec 7) (a : Src)
  /-- FRND: 14 R358. -/
  | frnd (d : BitVec 7) (a : Src)
  /-- FRCP: 14 R358. -/
  | frcp (d : BitVec 7) (a : Src)
  /-- FRSQ: 14 R358. -/
  | frsq (d : BitVec 7) (a : Src)
  /-- FSQRT: 14 R358. -/
  | fsqrt (d : BitVec 7) (a : Src)
  /-- FEXP2: 14 R358. -/
  | fexp2 (d : BitVec 7) (a : Src)
  /-- FLOG2: 14 R358. -/
  | flog2 (d : BitVec 7) (a : Src)
  /-- FTANH: 14 R358. -/
  | ftanh (d : BitVec 7) (a : Src)
  /-- HADD2: 14 R361. -/
  | hadd2 (d : BitVec 7) (a : Src) (b : Src)
  /-- HMUL2: 14 R361. -/
  | hmul2 (d : BitVec 7) (a : Src) (b : Src)
  /-- HFMA2: 14 R361. -/
  | hfma2 (d : BitVec 7) (a : Src) (b : Src)
  /-- CVT: 14 R362. -/
  | cvt (d : BitVec 7) (a : Src) (t : BitVec 4) (j : BitVec 2)
  /-- CVTPK: 14 R363. -/
  | cvtpk (d : BitVec 7) (a : Src) (b : Src)
  /-- QSWZ: 14 R364. -/
  | qswz (d : BitVec 7) (a : Src) (pat : BitVec 8)
  /-- QBCAST: 14 R364. -/
  | qbcast (d : BitVec 7) (a : Src) (k : BitVec 2)
  /-- QDX: 14 R364. -/
  | qdx (d : BitVec 7) (a : Src)
  /-- QDY: 14 R364. -/
  | qdy (d : BitVec 7) (a : Src)
  /-- VSHFL: 14 R365. -/
  | vshfl (d : BitVec 7) (a : Src) (b : Src)
  /-- VBALLOT: 14 R365. -/
  | vballot (d : BitVec 6) (a : Src) (n : BitVec 8)
  /-- VREADL: 14 R365. -/
  | vreadl (d : BitVec 6) (a : Src) (b : Src)
  /-- VWRITEL: 14 R365. -/
  | vwritel (d : BitVec 7) (a : Src) (b : Src)
  /-- VRAND: 14 R366. -/
  | vrand (d : BitVec 7)
  /-- PAND: 14 R367. -/
  | pand (g : BitVec 3) (pa : BitVec 4) (pb : BitVec 4)
  /-- POR: 14 R367. -/
  | por (g : BitVec 3) (pa : BitVec 4) (pb : BitVec 4)
  /-- PXOR: 14 R367. -/
  | pxor (g : BitVec 3) (pa : BitVec 4) (pb : BitVec 4)
  /-- PNOT: 14 R367. -/
  | pnot (g : BitVec 3) (pa : BitVec 4)
  /-- PSET: 14 R367. -/
  | pset (g : BitVec 3) (a : Src)
  /-- KCLR: 09 R230. -/
  | kclr (k : BitVec 4)
  /-- KJOIN: 09 R230. -/
  | kjoin (kd : BitVec 4) (ka : BitVec 4) (kb : BitVec 4)
  /-- KFORK: 09 R230. -/
  | kfork (kd : BitVec 4) (ks : BitVec 4)
  /-- KWAIT: 09 R231. -/
  | kwait (k : BitVec 4)
  /-- FENCE: 09 R231. -/
  | fence
  /-- KSEND: 09 R234. -/
  | ksend (a : Src) (ks : BitVec 4) (kr : BitVec 4)
  /-- KARR: 09 R234. -/
  | karr (k : BitVec 4)
  /-- KSTAT: 09 R232. -/
  | kstat (d : BitVec 6) (k : BitVec 4)
  /-- GBAR: 15 R392. -/
  | gbar (n : BitVec 2) (k : BitVec 4)
  /-- GBAR_PHASE: 15 R393. -/
  | gbarPhase (k : BitVec 4)
  /-- BINIT: 15 R396. -/
  | binit (a : Src) (b : Src)
  /-- BEXPECT: 15 R397. -/
  | bexpect (a : Src) (b : Src)
  /-- BARRIVE: 15 R397. -/
  | barrive (a : Src) (k : BitVec 4)
  /-- BWAIT: 15 R398. -/
  | bwait (a : Src) (b : Src)
  /-- BTEST: 15 R398. -/
  | btest (d : BitVec 6) (a : Src) (b : Src)
  /-- YIELD_B: 15 R398. -/
  | yieldB (d : BitVec 6) (p : Bool) (a : Src) (b : Src)
  /-- VGIVE: 05 R146. -/
  | vgive (n : BitVec 16)
  /-- VCLAIM: 05 R146. -/
  | vclaim (n : BitVec 16)
  /-- XGIVE: 05 R146. -/
  | xgive (n : BitVec 16)
  /-- XCLAIM: 05 R146. -/
  | xclaim (n : BitVec 16)
  /-- XMOVR: 16 R422. -/
  | xmovr (v : BitVec 7) (dir : Bool) (x : BitVec 4) (imm : BitVec 2) (n : BitVec 6)
  /-- XMOVC: 16 R422. -/
  | xmovc (v : BitVec 7) (dir : Bool) (side : Bool) (x : BitVec 4) (imm : BitVec 2) (n : BitVec 6)
  /-- LD: 15 R382. -/
  | ld (d : BitVec 7) (v : BitVec 7) (b : BitVec 2) (st : Bool) (p : BitVec 4) (k : BitVec 4)
  /-- ST: 15 R382. -/
  | st (d : BitVec 7) (v : BitVec 7) (b : BitVec 2) (st : Bool) (p : BitVec 4) (k : BitVec 4)
  /-- LDL: 15 R382. -/
  | ldl (d : BitVec 7) (v : BitVec 7) (b : BitVec 2) (st : Bool) (p : BitVec 4) (k : BitVec 4)
  /-- STL: 15 R382. -/
  | stl (d : BitVec 7) (v : BitVec 7) (b : BitVec 2) (st : Bool) (p : BitVec 4) (k : BitVec 4)
  /-- LDLINE: 15 R384. -/
  | ldline (d : BitVec 7) (v : BitVec 7) (b : BitVec 2) (st : Bool) (p : BitVec 4) (k : BitVec 4)
  /-- STLINE: 15 R384. -/
  | stline (d : BitVec 7) (v : BitVec 7) (b : BitVec 2) (st : Bool) (p : BitVec 4) (k : BitVec 4)
  /-- PREF: 15 R385. -/
  | pref (h : BitVec 7) (v : BitVec 7) (b : BitVec 2) (p : BitVec 4) (k : BitVec 4)
  /-- SLD: 15 R383. -/
  | sld (d : BitVec 6) (m : BitVec 6) (b : BitVec 2) (st : Bool) (p : BitVec 4) (k : BitVec 4)
  /-- SST: 15 R383. -/
  | sst (d : BitVec 6) (m : BitVec 6) (b : BitVec 2) (st : Bool) (p : BitVec 4) (k : BitVec 4)
  /-- LAUNCH: 03 R87. -/
  | launch (v : BitVec 7) (b : BitVec 2) (k : BitVec 4)
  /-- ENQ: 15 R400. -/
  | enq (b : BitVec 2) (k : BitVec 4)
  /-- ATOM_ADD: 15 R386. -/
  | atomAdd (d : BitVec 7) (v : BitVec 7) (b : BitVec 2) (st : Bool) (p : BitVec 4) (k : BitVec 4)
  /-- ATOM_MIN: 15 R386. -/
  | atomMin (d : BitVec 7) (v : BitVec 7) (b : BitVec 2) (st : Bool) (p : BitVec 4) (k : BitVec 4)
  /-- ATOM_MAX: 15 R386. -/
  | atomMax (d : BitVec 7) (v : BitVec 7) (b : BitVec 2) (st : Bool) (p : BitVec 4) (k : BitVec 4)
  /-- ATOM_AND: 15 R386. -/
  | atomAnd (d : BitVec 7) (v : BitVec 7) (b : BitVec 2) (st : Bool) (p : BitVec 4) (k : BitVec 4)
  /-- ATOM_OR: 15 R386. -/
  | atomOr (d : BitVec 7) (v : BitVec 7) (b : BitVec 2) (st : Bool) (p : BitVec 4) (k : BitVec 4)
  /-- ATOM_XOR: 15 R386. -/
  | atomXor (d : BitVec 7) (v : BitVec 7) (b : BitVec 2) (st : Bool) (p : BitVec 4) (k : BitVec 4)
  /-- ATOM_XCHG: 15 R386. -/
  | atomXchg (d : BitVec 7) (v : BitVec 7) (b : BitVec 2) (st : Bool) (p : BitVec 4) (k : BitVec 4)
  /-- ATOM_CAS: 15 R386. -/
  | atomCas (d : BitVec 7) (v : BitVec 7) (b : BitVec 2) (st : Bool) (p : BitVec 4) (k : BitVec 4)
  /-- ATOM_INC: 15 R386. -/
  | atomInc (d : BitVec 7) (v : BitVec 7) (b : BitVec 2) (st : Bool) (p : BitVec 4) (k : BitVec 4)
  /-- ATOM_DEC: 15 R386. -/
  | atomDec (d : BitVec 7) (v : BitVec 7) (b : BitVec 2) (st : Bool) (p : BitVec 4) (k : BitVec 4)
  /-- ATOM_FADD: 15 R386. -/
  | atomFadd (d : BitVec 7) (v : BitVec 7) (b : BitVec 2) (st : Bool) (p : BitVec 4) (k : BitVec 4)
  /-- MMA: 16 R417. -/
  | mma (x : BitVec 4) (a : XSrc) (b : XSrc) (f : BitVec 5) (k : BitVec 4)
  /-- MMAB_AND: 16 R417. -/
  | mmabAnd (x : BitVec 4) (a : XSrc) (b : XSrc) (f : BitVec 5) (k : BitVec 4)
  /-- MMAB_XOR: 16 R417. -/
  | mmabXor (x : BitVec 4) (a : XSrc) (b : XSrc) (f : BitVec 5) (k : BitVec 4)
  /-- XSCALE: 12 R297. -/
  | xscale (x : BitVec 4) (f : BitVec 5)
  /-- XCVT: 16 R420. -/
  | xcvt (x : BitVec 4) (a : BitVec 4) (im : Bool) (q : BitVec 3) (fmt : BitVec 4)
  /-- XZERO: 16 R419. -/
  | xzero (x : BitVec 4)
  /-- TLD: 16 R421. -/
  | tld (x : BitVec 4) (side : Bool) (loc : Bool) (f : BitVec 5) (k : BitVec 4)
  /-- TST: 16 R421. -/
  | tst (x : BitVec 4) (side : Bool) (loc : Bool) (f : BitVec 5) (k : BitVec 4)
  /-- SSCAN: 16 R425. -/
  | sscan (f : BitVec 5) (k : BitVec 4)
  /-- SSLD: 16 R425. -/
  | ssld (f : BitVec 5) (k : BitVec 4)
  /-- SSST: 16 R425. -/
  | ssst (f : BitVec 5) (k : BitVec 4)
  /-- UNASSIGNED_ENCODING: 13 R328. -/
  | unassignedEncoding (word : Word)
  /-- POWER_ON: 01 R14. -/
  | powerOn
  /-- PACKAGE_RESET: 01 R26. -/
  | packageReset
  /-- DIE_RELEASE: 01 R14. -/
  | dieRelease (kind : DieKind) (n : Nat)
  /-- HOST_PORT_TRAINED: 02 R44. -/
  | hostPortTrained (port : Nat) (rate : Nat) (width : Nat)
  /-- GUYLINE_LINK_READY: 02 R51. -/
  | guylineLinkReady (link : Nat)
  /-- CHANNEL_TRAIN_COMPLETE: 01 R20. -/
  | channelTrainComplete (die : Nat) (chan : Nat)
  /-- RECOVERY_PORT_TIMEOUT: 01 R21. -/
  | recoveryPortTimeout
  /-- RECOVERY_GO: 01 R21. -/
  | recoveryGo
  /-- RECOVERY_VERIFY_DONE: 01 R21. -/
  | recoveryVerifyDone
  /-- RECOVERY_COMMIT: 01 R19. -/
  | recoveryCommit
  /-- HOST_CONFIG_REQUEST: 01 R14. -/
  | hostConfigRequest (port : Nat)
  /-- HOST_BAR2_WRITE: 02 R45. -/
  | hostBar2Write (off : Nat) (bytes : List Byte)
  /-- HOST_BAR2_READ: 02 R45. -/
  | hostBar2Read (off : Nat) (len : Nat)
  /-- GET_VERSION: 01 R23. -/
  | getVersion
  /-- GET_CAPABILITIES: 01 R23. -/
  | getCapabilities
  /-- NEGOTIATE_ALGORITHMS: 01 R23. -/
  | negotiateAlgorithms (version : Nat)
  /-- GET_DIGESTS: 01 R23. -/
  | getDigests
  /-- GET_CERTIFICATE: 01 R23. -/
  | getCertificate
  /-- CHALLENGE: 01 R23. -/
  | challenge (nonce : List Byte)
  /-- GET_MEASUREMENTS: 01 R23. -/
  | getMeasurements (index : Nat)
  /-- KEY_EXCHANGE: 01 R23. -/
  | keyExchange (data : List Byte)
  /-- PORT_FAILOVER: 02 R48. -/
  | portFailover
  /-- TAKEOVER: 02 R48. -/
  | takeover
  /-- HOST_WRITE_ACK: 02 R47. -/
  | hostWriteAck (op : Nat)
  /-- LINK_FAILURE: 02 R53. -/
  | linkFailure (link : Nat)
  /-- MODULE_UNREACHABLE: 08 R219. -/
  | moduleUnreachable (module : Nat)
  /-- FABRIC_RESPONSE_TIMEOUT: 02 R55. -/
  | fabricResponseTimeout (op : Nat)
  /-- REDUCTION_CONTRIBUTION: 02 R59. -/
  | reductionContribution (group : Nat) (module : Nat) (seq : Word) (value : BitVec 64)
  /-- REDUCTION_RESULT: 02 R61. -/
  | reductionResult (group : Nat)
  /-- REDUCTION_TIMEOUT: 02 R62. -/
  | reductionTimeout (group : Nat)
  /-- RED_CFG_WRITE: 02 R62. -/
  | redCfgWrite (group : Nat) (word : Nat) (value : BitVec 64)
  /-- INTLV_WRITE: 03 R67. -/
  | intlvWrite (value : Word)
  /-- REGISTER_WRITE: 00 R8. -/
  | registerWrite (off : Nat) (value : BitVec 64)
  /-- CTX_CMD_NONE: 03 R69. -/
  | ctxCmdNone
  /-- CTX_CREATE: 03 R68. -/
  | ctxCreate (ctx : Nat) (desc : Nat)
  /-- CTX_DESTROY: 03 R69. -/
  | ctxDestroy (ctx : Nat)
  /-- CTX_DESTROY_COMPLETE: 03 R69. -/
  | ctxDestroyComplete (ctx : Nat)
  /-- CTX_CMD_RESERVED: 03 R69. -/
  | ctxCmdReserved
  /-- MONITOR_WAKE: 08 R212. -/
  | monitorWake (line : Nat)
  /-- MONITOR_POLL: 08 R212. -/
  | monitorPoll (die : Nat) (line : Nat)
  /-- PACKET_TAKE: 03 R72. -/
  | packetTake (q : Nat)
  /-- QUEUE_RESUME: 03 R74. -/
  | queueResume (q : Nat)
  /-- GROUP_PLACE: 03 R81. -/
  | groupPlace (q : Nat) (die : Nat) (core : Nat)
  /-- CORESIDENT_GRID_PLACE: 03 R82. -/
  | coresidentGridPlace (q : Nat) (cores : List Nat)
  /-- CONTINUATION_PLACE: 04 R99. -/
  | continuationPlace (handle : BitVec 64) (die : Nat) (core : Nat)
  /-- GROUP_COMPLETE: 03 R84. -/
  | groupComplete
  /-- PHASE_END: 04 R91. -/
  | phaseEnd
  /-- PHASE_SPILL: 04 R98. -/
  | phaseSpill
  /-- SUSPEND_CONTEXT: 04 R114. -/
  | suspendContext (ctx : Nat)
  /-- SUSPEND_DRAINED: 04 R114. -/
  | suspendDrained (ctx : Nat)
  /-- RESUME_CONTEXT: 04 R114. -/
  | resumeContext (ctx : Nat)
  /-- PREEMPT_GRID: 04 R108. -/
  | preemptGrid (ctx : Nat) (queue : Nat) (packet : Nat)
  /-- GRACE_EXPIRY: 04 R109. -/
  | graceExpiry
  /-- FULL_SAVE: 04 R109. -/
  | fullSave
  /-- XLT_CMD_NONE: 07 R197. -/
  | xltCmdNone
  /-- XLT_INVALIDATE_RANGE: 07 R198. -/
  | xltInvalidateRange (ctx : Nat) (size : Nat)
  /-- XLT_INVALIDATE_ALL: 07 R198. -/
  | xltInvalidateAll (ctx : Nat)
  /-- XLT_CMD_RESERVED: 07 R197. -/
  | xltCmdReserved
  /-- XLT_INVALIDATE_COMPLETE: 07 R198. -/
  | xltInvalidateComplete
  /-- MEM_MOVE_BLOCK: 08 R215. -/
  | memMoveBlock (die : Nat) (block : Nat) (tdie : Nat) (tblock : Nat)
  /-- HOME_SWITCH: 08 R215. -/
  | homeSwitch (die : Nat) (block : Nat)
  /-- HOME_SWITCH_ACK: 08 R215. -/
  | homeSwitchAck (die : Nat) (block : Nat) (agent : Nat)
  /-- MEM_OFFLINE_DIE: 08 R216. -/
  | memOfflineDie (die : Nat)
  /-- MEM_ONLINE_DIE: 08 R217. -/
  | memOnlineDie (die : Nat)
  /-- MEM_HEAL_LINE: 08 R220. -/
  | memHealLine
  /-- MEM_CMD_RESERVED: 08 R217. -/
  | memCmdReserved
  /-- COMPUTE_DIE_LOSS: 01 R28. -/
  | computeDieLoss (die : Nat)
  /-- COMPUTE_DIE_RESTART: 01 R27. -/
  | computeDieRestart (die : Nat)
  /-- VDIE_REMAP: 01 R12. -/
  | vdieRemap (v : Nat) (phys : Nat)
  /-- MDIE_REMAP: 01 R13. -/
  | mdieRemap (v : Nat) (phys : Nat)
  /-- THERMAL_THROTTLE: 01 R43. -/
  | thermalThrottle (kind : DieKind) (n : Nat)
  /-- THERMAL_RELEASE: 01 R43. -/
  | thermalRelease (kind : DieKind) (n : Nat)
  /-- COMPUTE_DIE_OVERTEMP: 01 R43. -/
  | computeDieOvertemp (die : Nat)
  /-- MEMDIE_OVERTEMP: 01 R43. -/
  | memdieOvertemp (kind : DieKind) (n : Nat)
  /-- COOLANT_FAULT: 01 R43. -/
  | coolantFault
  /-- COOLANT_RESTORED: 01 R43. -/
  | coolantRestored
  /-- ECC_UNCORRECTABLE: 01 R36. -/
  | eccUncorrectable (sector : Nat)
  /-- SLICE_READ_REQUEST: 08 R205. -/
  | sliceReadRequest (die : Nat) (core : Nat) (line : Nat)
  /-- SLICE_OWNERSHIP_REQUEST: 08 R205. -/
  | sliceOwnershipRequest (die : Nat) (agent : Nat) (line : Nat)
  /-- INVALIDATION: 08 R206. -/
  | invalidation (die : Nat) (agent : Nat) (line : Nat)
  /-- INVALIDATION_ACK: 08 R205. -/
  | invalidationAck (die : Nat) (line : Nat)
  /-- FORWARD: 08 R205. -/
  | forward (die : Nat) (line : Nat)
  /-- ENGINE_RECALL: 08 R207. -/
  | engineRecall (die : Nat) (line : Nat)
  /-- EVICTION_NOTICE: 08 R206. -/
  | evictionNotice (die : Nat) (core : Nat) (line : Nat)
  /-- L1_WRITEBACK: 08 R206. -/
  | l1Writeback (die : Nat) (core : Nat) (line : Nat)
  /-- L2_EVICTION: 08 R201. -/
  | l2Eviction (die : Nat) (line : Nat)
  /-- HOME_READ: 08 R209. -/
  | homeRead (agent : Nat) (line : Nat)
  /-- HOME_OWNERSHIP: 08 R209. -/
  | homeOwnership (agent : Nat) (line : Nat)
  /-- HOME_UPGRADE: 08 R209. -/
  | homeUpgrade (agent : Nat) (line : Nat)
  /-- HOME_CLEAN_EVICTION: 08 R209. -/
  | homeCleanEviction (agent : Nat) (line : Nat)
  /-- HOME_WRITEBACK: 08 R209. -/
  | homeWriteback (agent : Nat) (line : Nat)
  /-- PROXY_REQUEST: 08 R210. -/
  | proxyRequest (module : Nat) (kind : ProxyKind) (line : Nat) (bytes : List Byte)
  /-- PAGE_WALK_COMPLETE: 07 R195. -/
  | pageWalkComplete (die : Nat) (core : Nat) (ctx : Nat) (va : Nat)
  /-- PIN_RELEASE: 07 R184. -/
  | pinRelease (die : Nat) (line : Nat)
  /-- MEMBER_PERFORMED: 09 R228. -/
  | memberPerformed (op : Nat)
  /-- FAULT_COPY_PLACED: 09 R235. -/
  | faultCopyPlaced
  /-- DELIVERY_APPLY: 09 R234. -/
  | deliveryApply
  /-- REMOTE_KSEND_DELIVER: 02 R56. -/
  | remoteKsendDeliver (op : Nat)
  /-- KSEND_ACK_TIMEOUT: 02 R56. -/
  | ksendAckTimeout (op : Nat)
  /-- ENGINE_ENTRY_ISSUE: 10 R255. -/
  | engineEntryIssue (chain : Nat)
  /-- COPY_PERFORMED: 15 R403. -/
  | copyPerformed (op : Nat)
  /-- ARRIVAL_COUNTED: 10 R260. -/
  | arrivalCounted (op : Nat)
  /-- SWAP_ELIGIBLE: 04 R105. -/
  | swapEligible (die : Nat) (core : Nat) (slot : Nat)
  /-- FORCED_SWAP: 04 R106. -/
  | forcedSwap (die : Nat) (core : Nat) (slot : Nat)
  /-- ACTIVE_SET_FILL: 04 R105. -/
  | activeSetFill (die : Nat) (core : Nat) (slot : Nat)
  /-- EJECT_THREAD_START: 06 R158. -/
  | ejectThreadStart (lane : Nat)
  /-- LANE_REJOIN: 06 R166. -/
  | laneRejoin
  /-- LANE_RECALL: 06 R168. -/
  | laneRecall (lane : Nat)
  /-- REJOIN_SOFT_LIMIT: 06 R167. -/
  | rejoinSoftLimit
  /-- REJOIN_HARD_LIMIT: 06 R167. -/
  | rejoinHardLimit
  /-- CLAIM_GRANT: 05 R146. -/
  | claimGrant
  /-- CLAIMLOCK: 05 R148. -/
  | claimlock (slot : Nat)
  /-- LOAD_DATA_RETURN: 13 R316. -/
  | loadDataReturn (op : Nat)
  /-- MATRIX_BEAT_WRITE: 12 R290. -/
  | matrixBeatWrite (op : Nat)
  /-- TILE_FETCH_ARRIVAL: 12 R293. -/
  | tileFetchArrival (op : Nat)
  /-- STATE_SPACE_COMPLETE: 12 R307. -/
  | stateSpaceComplete (op : Nat)
  /-- LAUNCH_ENQUEUE_COMPLETE: 03 R87. -/
  | launchEnqueueComplete (op : Nat)
  /-- HALT_COMPLETE: 04 R121. -/
  | haltComplete
  /-- POWER_REMOVAL: 01 R26. -/
  | powerRemoval
  /-- HOST_PORT_DL_DOWN: 02 R48. -/
  | hostPortDlDown (port : Nat)
deriving DecidableEq, Repr

end Sys2Proof
end

