-- ==== Sys2Proof/Machine/State.lean ====
section
/-!
DEFINITION. The state of one OQ-S3200 module as plain data, its faults and refusals, and the state after reset. Each
structure cites the rules of the spec that give the machine its fields; INVENTORY.md lists them one by one.
-/

namespace Sys2Proof.Machine

open Sys2Proof

/-! ## Keys (09) -/

/-- A tag: wave handle, slot and generation (09 R223). -/
structure Tag where
  handle : BitVec 64
  slot : Nat
  gen : Nat
deriving DecidableEq, Repr

/-- A fault entry: trap cause, address, detail, and the slots it taints (09 R222, R235). -/
structure FaultEntry where
  cause : Nat
  addr : Nat
  detail : Nat
  slots : BitVec 16
deriving DecidableEq, Repr

/-- A key membership received by KSEND and not yet applied; op is the KSEND it completes (09 R234). -/
structure Delivery where
  slot : Nat
  tags : List Tag
  faults : List FaultEntry
  op : Nat
deriving DecidableEq, Repr

/-- A copy of a fault entry that found the fault list full: the member op stays incomplete for this wave under its
tag (09 R235). -/
structure HeldFault where
  op : Nat
  tag : Tag
  entry : FaultEntry
deriving DecidableEq, Repr

/-- A wave's key file (09 R222, Table 9-1). heldFaults are copies that found the fault list full (R235). -/
structure KeyFile where
  tags : Tab (List Tag) := []
  gen : Tab Nat := []
  arrival : BitVec 16 := 0
  faults : List FaultEntry := []
  heldFaults : List HeldFault := []
  queue : List Delivery := []
deriving DecidableEq, Repr

/-! ## Waves (05, 06, 13) -/

/-- A register that instructions interlock on (13 R317). -/
inductive Reg where
  | v (n : Nat)
  | s (n : Nat)
  | g (n : Nat)
  | x (n : Nat)
deriving DecidableEq, Repr

/-- Kind of a reconvergence stack entry (06 R150, Table 6-1). -/
inductive EntryKind where
  | join | path | recall
deriving DecidableEq, Repr

/-- A reconvergence stack entry (06 R150). rpc none stands for all ones. live and eject are the jflags of a join. -/
structure Entry where
  kind : EntryKind
  mask : LaneMask
  pc : Pc
  rpc : Option Pc
  live : Nat
  eject : Bool
deriving DecidableEq, Repr

/-- A clause as fetched (13 R311, R313; 07 R180): base is its header's address; body the words fetched; missing the
XLATE or POISON fault (trap cause, detail) of the first word that could not be fetched. -/
structure Clause where
  base : Pc
  header : Word
  body : List Word
  missing : Option (Nat × Nat)
deriving DecidableEq, Repr

/-- What a wave or lane waits for (04 R105; 09 R231; 10 R248, R261; 15 R392). members lists the operations that stood
in key k when the instruction issued, none standing for every key (FENCE), and sc is the scope awaited; tags are the
union that KJOIN took at its issue (09 R230). -/
inductive Wait where
  | flags (mask : BitVec 12)
  | clauseFlags (mask : BitVec 12)
  | members (k : Option Nat) (sc : Nat) (ops : List Nat)
  | join (tags : List Tag)
  | arrival (k : Nat)
  | strong (op : Nat)
  | gbar (n gen : Nat)
  | bwait (off phase : Nat)
  | claim
  | chain
  | slot
  | phaseEnd
  | rejoin
  | interlock
deriving DecidableEq, Repr

/-- Where a wave stands in its run. -/
inductive Status where
  | idle
  | ready
  | waiting (w : Wait)
  | yielded (off phase : Nat)
  | exited
  | halted
  | stopped
deriving DecidableEq, Repr

/-- Trap state of a wave (04 R116, R119; 16 R433). -/
structure TrapState where
  on : Bool := false
  cause : Word := 0
  detail : Word := 0
  pc : Pc := 0
  addr : BitVec 56 := 0
  em : LaneMask := 0
  mode : Word := 0
  tv : Tab (Tab Word) := []
  stack : List Entry := []
deriving DecidableEq, Repr

/-- A lane ejected to a Bivouac thread (06 R157): its window, scalar snapshot, predicate bits, mode copy and flags;
thread is its Bivouac thread of the die, core × 4 + n (R158); depth is the number of stack entries below its join
entry; since is the number of the first operation issued after its ejection (R162); stuck: its recall found no room, and it stays
on its thread until TRET (Table 6-5). -/
structure EjLane where
  lane : Nat
  thread : Nat
  pc : Pc
  depth : Nat
  rpc : Pc
  live : Nat
  mode : Word
  win : Tab Word
  pred : BitVec 8
  sreg : Tab Word
  flag : Tab Nat
  clause : Option Clause
  status : Status
  started : Bool
  readsSince : List Reg
  since : Nat := 0
  stuck : Bool := false
deriving DecidableEq, Repr

/-- The state of VRAND (14 R366). -/
structure Rand where
  x : Word := 0
  y : Word := 0
  z : Word := 0
  w : Word := 0
deriving DecidableEq, Repr

/-- A wave (05 R125, R134). winTraps are the window violations that recalled lanes still have to take, with their pc
and register (06 R160); stackDue the fault met at a recall's push, due at the wave's next instruction (06 Table 6-5);
exitPop: the wave pops because EXIT left its mask empty (06 R156). fell are the lanes, with their pc, that have fallen out of a terminal
clause and have not run since: sides that wait on the stack or were ejected, and recalled lanes (13 R313, R329; 14 R375). -/
structure Wave where
  idx : Nat := 0
  handle : BitVec 64 := 0
  name : BitVec 64 := 0
  status : Status := .idle
  pc : Pc := 0
  clause : Option Clause := none
  sreg : Tab Word := []
  vreg : Tab (Tab Word) := []
  vblocks : Nat := 0
  pred : Tab LaneMask := []
  tile : Tab (Tab Word) := []
  side : Tab (Tab Word) := []
  tiles : Nat := 0
  flag : Tab Nat := []
  mode : Word := 0
  role : Word := 0
  astat : Word := 0
  hmask : LaneMask := 0
  rand : Rand := {}
  keys : KeyFile := {}
  stack : List Entry := []
  batches : Nat := 0
  trap : TrapState := {}
  ejected : List EjLane := []
  gone : LaneMask := 0
  spill : Nat := 0
  rejoinSoft : Bool := false
  ksendOverdue : Bool := false
  readsSince : List Reg := []
  laneFault : Bool := false
  winTraps : List (Nat × Pc × Nat) := []
  stackDue : Option FaultEntry := none
  exitPop : Bool := false
  fell : List (LaneMask × Pc) := []
deriving DecidableEq, Repr

/-! ## Groups (03, 04, 05, 15) -/

/-- The fields of a group descriptor (03 Table 3-6). -/
structure Desc where
  addr : Nat := 0
  entry : Nat := 0
  waves : Nat := 1
  gflags : Nat := 0
  lsize : Nat := 0
  carried : Nat := 0
  poolv : Nat := 0
  poolx : Nat := 0
  privsz : Nat := 0
  roles : Nat := 0
  counts : List (Nat × Nat) := []
  carryv : BitVec 128 := 0
  carryx : BitVec 16 := 0
  mode : Word := 0
deriving DecidableEq, Repr

/-- A stalled claim (05 R146): wave index, vector or tile, count. -/
structure Claim where
  wave : Nat
  vector : Bool
  n : Nat
deriving DecidableEq, Repr

/-! ## Chains (10, 15) -/

/-- An open LOOP of a chain (15 R404). -/
structure LoopFrame where
  start : Nat
  stop : Nat
  left : Nat
  iter : Nat
deriving DecidableEq, Repr

/-- A request-engine chain (10 R255, 15 R404): holding is set while an ARRIVE of it is held; waits are the members that
the consume key of the ARRIVE it has reached held when it was reached (10 R260);
start tells the order in which chains started; read holds the entry that it has reached, once that is read. -/
structure Chain where
  id : Nat
  owner : BitVec 64
  group : BitVec 64
  ctx : Nat
  die : Nat
  core : Nat
  scope : Nat
  next : Nat
  loops : List LoopFrame
  holding : Bool
  waits : Option (List Nat)
  start : Nat := 0
  read : Option (List Byte) := none
deriving DecidableEq, Repr

/-- A held arrival (10 R259, 15 R397). -/
structure Held where
  die : Nat
  core : Nat
  group : BitVec 64
  off : Nat
  chain : Option Nat
deriving DecidableEq, Repr

/-! ## Groups as they run -/

/-- A group on a core (05 R125, R145; 07 R175; 15 R392). peers are its waves other than the one in focus; chains and holds the
engine chains and held arrivals that a full save keeps with it (04 R98); asked numbers the request to leave its core that it follows
(R124). -/
structure Group where
  ctx : Nat := 0
  queue : Nat := 0
  packet : Nat := 0
  linear : Nat := 0
  x : Word := 0
  y : Word := 0
  z : Word := 0
  die : Nat := 0
  core : Nat := 0
  desc : Desc := {}
  args : Nat := 0
  privBase : Nat := 0
  coresident : Bool := false
  lmem : Tab Byte := []
  ldev : Tab (BitVec 16) := []
  vpool : Tab Nat := []
  xpool : Tab Nat := []
  claims : List Claim := []
  gbarGen : Tab Nat := []
  gbarArr : Tab Nat := []
  phaseAt : BitVec 16 := 0
  phase : Nat := 0
  phaseOver : Bool := false
  tbars : List Nat := []
  preempt : Option Nat := none
  saveDue : Bool := false
  err : Bool := false
  peers : List Wave := []
  chains : List Chain := []
  holds : List Held := []
  asked : Nat := 0
deriving DecidableEq, Repr

/-- A phase record (04 R96-R98): where it is, its selector, kind and phase, the committed state as a group whose
peers are all its waves, and that of the other slot; heldBack while a pre-emption holds the continuation (R109). What the spec places in
the record's bytes is in memory too, and read back from there (log 9). -/
structure Record where
  ctx : Nat
  off : Nat
  size : Nat
  epoch : Nat
  handle : BitVec 64
  selector : Nat
  kind : Nat
  phase : Nat
  heldBack : Bool
  saved : Option Group
  other : Option Group := none
deriving DecidableEq, Repr

/-! ## Operations in flight (09 R223, R228; 10 R239, R249) -/

/-- The ATOM operations (15 Table 15-2). -/
inductive AtomOp where
  | add | min | max | band | bor | bxor | xchg | cas | inc | dec | fadd
deriving DecidableEq, Repr

/-- Where a load writes (15 R382-R384; 16 R421). In a load of a tile the access numbered 96 + r is side element r. -/
inductive LoadDst where
  | vec (d : Nat)
  | line (d : Nat)
  | scal (d : Nat)
  | tile (x : Nat)
deriving DecidableEq, Repr

/-- One access of one lane: its virtual address or local offset, and the places of its bytes, lowest first; none for
a helper lane whose access would fault. -/
structure LaneAcc where
  lane : Nat
  va : Nat
  bytes : List Nat
deriving DecidableEq, Repr

/-- One lane of an atomic: address of the location, x and c. -/
structure AtomItem where
  lane : Nat
  addr : Nat
  x : Nat
  c : Nat
deriving DecidableEq, Repr

/-- The rows and side elements a beat of matrix work writes: words keyed row * 32 + column, side keyed row. -/
structure Beat where
  words : Tab Word
  sides : Tab Word
deriving DecidableEq, Repr

/-- The fields of a format block (11 Table 11-8). -/
structure FmtBlk where
  afmt : Nat
  bfmt : Nat
  acc : Nat
  flags : Nat
  la : Nat
  lb : Nat
  asf : Nat
  bsf : Nat
  k : Nat
  cbase : Nat
  ascale : Nat
  acount : Nat
  bcount : Nat
  bscale : Nat
  cscale : Nat
  czp : Nat
deriving DecidableEq, Repr

/-- What an MMA or MMAB captures at issue (16 R417): accumulator, bin none for MMA and whether XOR for MMAB, block,
rounding and flush, codebook, scales keyed 64 × row + index, lanes, and source tiles. -/
structure MmaJob where
  x : Nat
  bin : Option Bool
  fb : FmtBlk
  rm : Nat
  fz : Bool
  cb : List Word
  sa : Tab Nat
  sb : Tab Nat
  mask : LaneMask
  act : LaneMask
  help : LaneMask
  a : Option Nat
  b : Option Nat
deriving DecidableEq, Repr

/-- A line of a streamed operand: row of A, or 96 + column of B; its virtual address and its bytes' places. -/
structure StreamLine where
  key : Nat
  va : Nat
  places : List Nat
deriving DecidableEq, Repr

/-- A streamed MMA or MMAB whose lines are being fetched (12 R293): lines still to come, rows fetched, lines held pinned
on the die, and the lines that met poison, with key, cause and address. -/
structure StreamJob where
  job : MmaJob
  die : Nat
  todo : List StreamLine
  got : Tab Nat
  held : List Nat
  bad : List (Nat × Nat × Nat)
deriving DecidableEq, Repr

/-- An access of the state-space unit: its virtual address and its bytes' places. -/
structure Span where
  va : Nat
  places : List Nat
deriving DecidableEq, Repr

/-- A state-space instruction as issued (12 R301, R307): 0 SSCAN, 1 SSLD, 2 SSST; its form, shape and formats; what it
reads and writes. -/
structure SteepJob where
  which : Nat
  chunked : Bool
  len : Nat
  n : Nat
  p : Nat
  d : Word
  gbf : Bool
  xbf : Bool
  ybf : Bool
  localIn : Bool
  localOut : Bool
  lstate : Nat
  a : List Span
  x : List (List Span)
  b : List (List Span)
  c : List (List Span)
  hIn : List Span
  y : List (List Span)
  hOut : List Span
deriving DecidableEq, Repr

/-- A COPY entry as issued (15 R402, R403): space flags, barrier, resolved source and destination, shape; the
destination lines already written (08 R207), the fault of its lowest failing address (10 R256), and the destination sectors that got
no response from another module, with the address (02 R55). -/
structure CopyJob where
  srcLocal : Bool
  dstLocal : Bool
  report : Option Nat
  src : Nat
  dst : Nat
  len : Nat
  rows : Nat
  sstride : Int
  dstride : Int
  ctx : Nat
  die : Nat
  core : Nat
  group : BitVec 64
  written : List Nat
  bad : Option FaultEntry
  lost : List (Nat × Nat) := []
deriving DecidableEq, Repr

/-- The kinds of operation in flight. -/
inductive OpKind where
  | load (loc : Bool) (size : Nat) (signed : Bool) (dst : LoadDst) (accs : List LaneAcc)
  | store (loc : Bool) (cells : List (Nat × Byte))
  | atomic (op : AtomOp) (size : Nat) (signed : Bool) (rm : Nat) (flush : Bool) (d : Nat) (items : List AtomItem)
  | matrix (x : Nat) (beats : List (Nat × Beat)) (astat : Word)
  | stream (job : StreamJob)
  | steep (job : SteepJob)
  | stateOut (glob : List (Nat × Byte)) (loc : List (Nat × Byte)) (astat : Word)
  | launch (addrs : List (Nat × Nat))
  | enq (head : Nat) (die : Nat) (core : Nat)
  | copy (job : CopyJob)
  | ksend (name : BitVec 64) (slot : Nat) (tags : List Tag) (faults : List FaultEntry) (remote : Bool)
  | arrive (group : BitVec 64) (off : Nat) (chain : Option Nat)
deriving DecidableEq, Repr

/-- An operation in flight: issuer, tag, consume key and the members it waits for, captured scope, strength,
completion flag, the scopes (codes below done) at which it is performed (10 R238, R239), the registers it reads and has
still to write (13 R317, 10 R249), the fault met while it was open with the lanes concerned (10 R250), and the imprecise
fault that it has still to report (10 R251), the lines it reaches that are mapped uncached (07 R194), and the page classes
of the others (07 R186); accs are its accesses with their lanes and addresses, for fault reports (04 R458, 09 R235); die and core are those it was issued on (01 R28; 08 R202), and via the Guyline link that each of its lines of
another module was sent over (02 R52, R53); since is that of its lane, 0 for one of the whole wave, and rejoined the number of the
first operation issued after the rejoin or recall of its lane (06 R162); once is set for what acts once for the wave (15 R379); got, olds
and raised are what earlier events of the same access have bound: the bytes of a load or written by a store, the old values of an
atomic's lanes and their flags (10 R246, R247; log 44); accepted is the number of the first operation issued after a store's acceptance
(10 R239, R241); locAccs are the accesses of a store to local memory. -/
structure Op where
  id : Nat
  owner : BitVec 64
  core : Nat
  lane : Option Nat
  pc : Pc
  kind : OpKind
  tag : Option Tag
  consume : Nat
  waits : List Nat
  scope : Nat
  strong : Bool
  flag : Option Nat
  done : Nat
  rd : List Reg
  wr : List Reg
  fault : Option FaultEntry
  faultLanes : LaneMask
  late : Option FaultEntry
  uncached : List Nat
  cls : Tab Nat
  accs : List LaneAcc
  die : Nat
  via : Tab Nat
  since : Nat := 0
  rejoined : Option Nat := none
  once : Bool := false
  got : List (Nat × Byte) := []
  olds : List (Nat × Nat) := []
  raised : Word := 0
  accepted : Option Nat := none
  locAccs : List LaneAcc := []
deriving DecidableEq, Repr

/-- The active and pending sets of a slot, in order of entry (04 R103); the active waves by age, the one that issued longest ago first
(R104); and the pending waves that are ready, the one that has been so longest first (R106). -/
structure SlotSet where
  die : Nat
  core : Nat
  slot : Nat
  active : List (BitVec 64)
  pending : List (BitVec 64)
  age : List (BitVec 64) := []
  ready : List (BitVec 64) := []
deriving DecidableEq, Repr

/-! ## Translation and coherence (07, 08) -/

/-- A cached translation (07 R191, R193): page of 4 KiB × 2^size at va. -/
structure TlbEntry where
  ctx : Nat
  va : Nat
  size : Nat
  pa : Nat
  cls : Nat
  unc : Bool
  x : Bool
  w : Bool
  rd : Bool
deriving DecidableEq, Repr

/-- A walker-cache pointer entry (07 R193). -/
structure WalkEntry where
  ctx : Nat
  level : Nat
  va : Nat
  node : Nat
deriving DecidableEq, Repr

/-- A walk of a die for a miss that takes its time: the context, the address that missed, and the addresses of the misses that wait for
it (07 R195). -/
structure Walk where
  die : Nat
  ctx : Nat
  va : Nat
  waiting : List Nat
deriving DecidableEq, Repr

/-- Translation state of the module: core TLBs by die × 32 + core, Bivouac TLBs by die × 16 + core, die TLBs,
walker caches by die, and the invalidation registers (07 R193, R197); while a command is busy, the operations it waits for and its
context and range of addresses (R198, R199); walks are the walks that take their time, in order of arrival (R195); ended is the model's
own, the addresses at which walks of this step have ended in a fault. -/
structure Xlt where
  core : Tab (List TlbEntry) := []
  biv : Tab (List TlbEntry) := []
  die : Tab (List TlbEntry) := []
  walker : Tab (List WalkEntry) := []
  va : BitVec 64 := 0
  busy : Bool := false
  result : Nat := 0
  waitOps : List Nat := []
  range : Option (Nat × Nat × Nat) := none
  walks : List Walk := []
  ended : List (Nat × Nat × Nat) := []
deriving DecidableEq, Repr

/-- L1 line states (08 Table 8-1); an unlisted line is in I. -/
inductive L1State where
  | m | o | e | s
deriving DecidableEq, Repr

/-- A line in a core's L1, with a valid bit for each sector (07 R177). -/
structure L1Line where
  die : Nat
  core : Nat
  line : Nat
  st : L1State
  valid : BitVec 4
deriving DecidableEq, Repr

/-- The die's state for a line (08 Table 8-2). -/
inductive DState where
  | i | s | e | m | o
deriving DecidableEq, Repr

/-- An ownership or eviction transaction of a line (08 R205): requester, agents still to be invalidated,
acknowledgements sent and not accepted, expected and arrived. -/
structure Txn where
  agent : Nat
  targets : List Nat
  sent : Nat
  expect : Nat
  arrived : Nat
  evict : Bool
deriving DecidableEq, Repr

/-- An L2 line with its directory entry, class and pins (08 R203; 07 R184, R186). queue holds the requests that wait behind what
is in progress on the line, in arrival order: the agent and whether it asks for ownership (08 R205). -/
structure L2Line where
  die : Nat
  line : Nat
  dstate : DState
  coarse : Bool
  owner : Option Nat
  vector : BitVec 8
  ptrs : List Nat
  cls : Nat
  pins : Nat
  txn : Option Txn
  fwd : Option Nat
  queue : List (Nat × Bool) := []
deriving DecidableEq, Repr

/-- Home directory states (08 Table 8-4). -/
inductive HState where
  | i | s | x | o
deriving DecidableEq, Repr

/-- A home directory entry: owner 0-31 a compute die, 64 + m the proxy of module m. -/
structure HomeEntry where
  line : Nat
  hstate : HState
  owner : Option Nat
  sharers : BitVec 32
  mods : List Nat
  overflow : Bool
  dirty : Bool
deriving DecidableEq, Repr

/-- A line in the memory-side cache of a memory die, newer than its DRAM while dirty (07 R185). -/
structure MCacheLine where
  die : Nat
  line : Nat
  cls : Nat
  dirty : Bool
deriving DecidableEq, Repr

/-- A foreign line as this module's proxy holds it, in X or else in S: the compute dies of the module that hold it (08 R210). -/
structure ProxyLine where
  dies : BitVec 32 := 0
  x : Bool := false
deriving DecidableEq, Repr

/-- A monitor entry: line and dispatch unit; woken once a write has been performed (08 R212). -/
structure Monitor where
  line : Nat
  die : Nat
  woken : Bool
deriving DecidableEq, Repr

/-- Coherence state of the module. Lists of lines are in order of use, latest first (LRU). fused has a bit for each
cluster, die × 8 + cluster (07 R178, R179). stalled is the model's own: what is being done reaches a line, or a translation, that
cannot be served yet, so that the step it belongs to does not take place (log 12). -/
structure Coh where
  l1 : List L1Line := []
  l2 : List L2Line := []
  home : List HomeEntry := []
  proxy : Tab ProxyLine := []
  mcache : List MCacheLine := []
  monitors : List Monitor := []
  polling : List (Nat × Nat) := []
  fused : BitVec 256 := 0
  stalled : Bool := false
deriving DecidableEq, Repr

/-- Memory over the 52-bit fabric address: bytes, deviation of each sector's check value from its good value, and
the DRAM bytes of lines whose newest data lies in a cache (02 R49; 01 R30; 08 R209). -/
structure Mem where
  cells : Tab Byte := []
  dev : Tab (BitVec 16) := []
  stale : Tab (List Byte) := []
deriving DecidableEq, Repr

/-- An open home move (08 R215). -/
structure Move where
  die : Nat
  block : Nat
  tdie : Nat
  tblock : Nat
  switched : Bool
  acks : List Nat
  back : Bool
deriving DecidableEq, Repr

/-- Memory service (03 R66, R67; 08 R214-R217). goingOffline and comingOnline name the die of the command. -/
structure MemSvc where
  intlv : Word := 0xAAAAAAAA
  addr : BitVec 64 := 0
  busy : Bool := false
  result : Nat := 0
  moved : Word := 0
  degraded : BitVec 16 := 0
  offline : BitVec 16 := 0
  lend : Tab Nat := []
  redirect : Tab (Option (Nat × Nat)) := []
  moves : List Move := []
  goingOffline : Option Nat := none
  comingOnline : Option Nat := none
deriving DecidableEq, Repr

/-! ## Contexts, queues and grids (03, 04) -/

/-- HALT_LOG of a context (04 Table 4-2). -/
structure HaltLog where
  cause : Nat := 0
  count : Nat := 0
  pc : Word := 0
  handle : BitVec 64 := 0
deriving DecidableEq, Repr

/-- A context: state 0 free, 1 active, 2 suspended (03 Tables 3-2, 3-3; 04 R96; 07 R187). epochs counts the reservations of
the record at each offset of its area, by offset ÷ 4,096 (09 Table 9-4); byHost: it is being destroyed by CTX_CMD (R69, 04 R124). -/
structure Ctx where
  state : Nat := 0
  span : Nat := 0
  first : Nat := 0
  grace : Nat := 0
  ptroot : Nat := 0
  qtable : Nat := 0
  trapvec : Nat := 0
  quota : BitVec 64 := 0
  softrejoin : Nat := 0
  phrArea : BitVec 64 := 0
  halt : HaltLog := {}
  epochs : Tab Nat := []
  destroying : Bool := false
  byHost : Bool := false
  suspending : Bool := false
deriving DecidableEq, Repr

/-- An entry of a queue's reorder window (03 R85): a group, or a whole co-resident grid. -/
structure WinEntry where
  packet : Nat
  linear : Nat
  groups : Nat
  complete : Nat
  err : Bool
deriving DecidableEq, Repr

/-- A queue (03 Table 3-4, R72-R74, R85): code is 0 while it runs; waitFor the wait packet it holds; preempts the packets of grids still
queued that SUSP_CMD op 3 has pre-empted (04 R113). -/
structure Queue where
  gq : Nat
  ctx : Nat
  idx : Nat
  ring : Nat
  windex : Nat
  rindex : Nat
  errrec : Nat
  slots : Nat
  prio : Nat
  devFed : Bool
  enable : Bool
  vector : Nat
  next : Nat
  code : Nat
  waitFor : Option (Nat × Nat)
  window : List WinEntry
  stopped : Bool
  server : Nat
  preempts : List Nat := []
deriving DecidableEq, Repr

/-- A grid taken from a queue (03 Table 3-5, R80, R86; 04 R108). -/
structure Grid where
  ctx : Nat
  queue : Nat
  packet : Nat
  gx : Nat
  gy : Nat
  gz : Nat
  args : Nat
  done : Nat
  spill : Nat
  priv : Nat
  flags : Nat
  desc : Desc
  next : Nat
  retired : Nat
  err : Bool
  preempted : Bool
deriving DecidableEq, Repr

/-! ## Fabric, host port, package (01, 02) -/

/-- A reduction group (02 R58-R62, Table 2-2) with the contributions of its round. -/
structure RedGroup where
  members : BitVec 64 := 0
  result : BitVec 64 := 0
  timeout : Word := 1000
  enable : Bool := false
  op : Nat := 0
  type : Nat := 0
  discards : Word := 0
  seq : Word := 0
  contribs : List (Nat × BitVec 64) := []
deriving DecidableEq, Repr

/-- Fabric registers (02 Table 2-2). silent is the model's own: what this step sends to another module gets no response within 1 ms (02 R55;
log 41). -/
structure Fabric where
  valid : Bool := false
  module : Nat := 0
  silent : Bool := false
  enable : BitVec 18 := 0x3FFFF
  err : BitVec 18 := 0
  route : Tab (BitVec 18) := []
  red : Tab RedGroup := []
deriving DecidableEq, Repr

/-- What the host receives (01 R23, R33; 02 R45). -/
inductive Resp where
  | crs
  | configOk
  | ur
  | data (bytes : List Byte) (ep : Bool)
  | spdmVersions (v : List Nat)
  | spdmCapabilities (names : List Nat)
  | spdmAlgorithms (hash sig : Nat)
  | spdmDigest (d : BitVec 512)
  | spdmBytes (bytes : List Byte)
  | measurement (index : Nat) (d : BitVec 512)
  | register (v : BitVec 64)
  | config (v : Nat)
deriving DecidableEq, Repr

/-- An event of the service log (01 R18, R33, R36, R39; 03 R74, R86). -/
inductive LogEvent where
  | recordFailed (type : Nat)
  | poisonSent (sector : Nat)
  | writeDiscarded (addr : Nat)
  | queueError (gq code : Nat)
  | doneWordLost (gq packet : Nat)
  | ecc (sector : Nat)
  | overtemp (kind : DieKind) (n : Nat)
deriving DecidableEq, Repr

/-- What the configuration space of a port tells (02 R44, R45): Link Status, numbers of functions, sizes in bytes, tag
bits, capabilities, and BAR sizes. -/
inductive CfgReg where
  | linkRate | linkWidth | physicalFunctions | virtualFunctions | maxPayload | maxReadRequest | tagBits | ats | pri | msixVectors
  | doe | ide | bar0Size | bar2Size
deriving DecidableEq, Repr

/-- A function that becomes ready by itself (01 Table 1-1, Table 1-8). -/
inductive Function where
  | cores | dispatch | base | mcache | reduce
deriving DecidableEq, Repr

/-- The host port (02 R44-R48) and the command results that BAR0 shows. msix lists the vectors raised, unacked those whose
message has no acknowledgement yet (Table 2-3); bar2Size is the exponent of the size that BAR2 is set to (R45); ide lists the
selective streams that are keyed (R44). -/
structure HostPort where
  active : Nat := 0
  trained : BitVec 2 := 0
  down : BitVec 2 := 0
  rate : Tab Nat := []
  width : Tab Nat := []
  bar2Base : Nat := 0
  bar2Size : Nat := 36
  msix : List Nat := []
  unacked : List Nat := []
  ide : List Nat := []
  resp : List Resp := []
  log : List LogEvent := []
  ctxBusy : Bool := false
  ctxResult : Nat := 0
  suspBusy : Bool := false
  suspResult : Nat := 0
deriving DecidableEq, Repr

/-- A firmware image (01 R15, R19). -/
structure Image where
  version : Nat
  bytes : List Byte
  sig : List Byte
deriving DecidableEq, Repr

/-- A configuration record as stored (01 Table 1-2): the bytes that are signed, and the signature after them. -/
structure Rec where
  bytes : List Byte
  sig : List Byte
deriving DecidableEq, Repr

/-- An entry of the measurement log (01 R14, R15, R19): the digest of the image or of a record, that of a firmware section
for a die about to be released, or a rejection with its type (0 the image), version and reason (that of Table 1-5). -/
inductive LogItem where
  | digest (d : BitVec 512)
  | firmware (kind : DieKind) (n : Nat) (d : BitVec 512)
  | rejected (type : Nat) (version : Nat) (reason : Nat)
deriving DecidableEq, Repr

/-- What Trailhead keeps across resets (01 R16, R19, R25). -/
structure Store where
  image : Option Image := none
  records : List Rec := []
  imgCounter : Nat := 0
  recCounters : Tab Nat := []
  mlog : List LogItem := []
deriving DecidableEq, Repr

/-- Configuration in force (01 Table 1-3, Table 1-9). -/
structure Cfg where
  cdie : List Nat := List.range 32
  mdie : List Nat := List.range 16
  iodie : List Nat := [0, 1]
  cfence : BitVec 32 := 0
  mfence : BitVec 16 := 0
  iofence : BitVec 2 := 0
  chfence : BitVec 256 := 0
  hostSel : Nat := 0
  limModule : Nat := 4600
  limCompute : Nat := 3500
  limMemory : Nat := 800
  limIo : Nat := 300
  throttle : Nat := 95
  release : Nat := 90
  fence : Nat := 110
  floor : Nat := 0
deriving DecidableEq, Repr

/-- The ready map (01 Table 1-8). -/
structure Ready where
  cdie : BitVec 32 := 0
  disp : BitVec 32 := 0
  mbase : BitVec 16 := 0
  mcache : BitVec 16 := 0
  chan : BitVec 256 := 0
  guyline : BitVec 18 := 0
  host : BitVec 2 := 0
  reduce : BitVec 2 := 0
  config : Bool := false
  gen : Word := 0
deriving DecidableEq, Repr

/-- The recovery mailbox (01 Table 1-5) and its staging window. -/
structure Recovery where
  state : Nat := 0
  reason : Nat := 0
  attempts : Nat := 0
  size : Word := 0
  port : Nat := 0
  staging : Tab Byte := []
  accepted : Option Image := none
  verifying : Bool := false
deriving DecidableEq, Repr

/-- SPDM negotiation (01 R23). -/
structure Spdm where
  version : Option Nat := none
  algorithms : Bool := false
  sessions : Nat := 0
deriving DecidableEq, Repr

/-- The package: power, bring-up step, released dies, configuration, readiness, heat and coolant (01). chanUp has the trained
channels, physical die × 16 + channel (R20); firstC is set with the first release of a compute die (R21); late lists the
functions of physical dies that come up after their die's release (R20); remaps are the compute die remaps that wait (R29);
restartOf lists the co-resident grids that leave for a die's restart, as die, context, queue and packet (Table 1-7); keys are the
memory-encryption keys by physical memory die (R24); eccChan and eccDie count corrections, by physical channel
and by die kind × 64 + number (R36). -/
structure Package where
  power : Bool := true
  step : Nat := 0
  store : Store := {}
  cfg : Cfg := {}
  ready : Ready := {}
  rcv : Recovery := {}
  spdm : Spdm := {}
  relC : BitVec 32 := 0
  relM : BitVec 16 := 0
  relIo : BitVec 2 := 0
  fencedC : BitVec 32 := 0
  chanUp : BitVec 256 := 0
  firstC : Bool := false
  late : List (Function × Nat) := []
  remaps : List (Nat × Nat) := []
  keys : Tab (BitVec 512) := []
  keysMade : Nat := 0
  eccChan : Tab Nat := []
  eccDie : Tab Nat := []
  gatedC : BitVec 32 := 0
  gatedM : BitVec 16 := 0
  gatedIo : BitVec 2 := 0
  minBwM : BitVec 16 := 0
  minBwIo : BitVec 2 := 0
  restartC : BitVec 32 := 0
  restartOf : List (Nat × Nat × Nat × Nat) := []
  coolantFault : Bool := false
deriving DecidableEq, Repr

/-! ## The machine -/

/-- What the machine takes next from outside the agent in focus: an event, or a turn of another wave or of an
ejected lane of the wave in focus (log 1); and what the outside does that has no row of the table (log 41): a read of BAR0 or
of configuration space through a port, BAR2 resized, a stream keyed, an MSI-X message acknowledged (02 R44-R48); a function
that is to come up later than its die, or comes up (01 R20); ECC corrections, and an uncorrectable error in local memory
(01 R36); the delivery of a KSEND from another module (02 R56); another module's home
invalidating a line that this module caches, which then holds other bytes, or forwarding a read of it, and another module's proxy
answering a recall or a forward of a line of this module with its data (08 R209, R210); and one event of an
access in flight, which takes place before the rest of it (10 R246, R247; log 44); a walk for a miss that takes its time (07 R195); a
turn of the wave in focus or of a lane of it, or an event, whose accesses to other modules get no response (02 R55). -/
inductive Input where
  | event (i : Instr)
  | turn (handle : BitVec 64)
  | laneTurn (lane : Nat)
  | readRegister (port : Nat) (off : Nat)
  | readConfig (port : Nat) (reg : CfgReg)
  | resizeBar2 (exponent : Nat)
  | keyStream (stream : Nat)
  | msixAck
  | functionLate (f : Function) (n : Nat)
  | functionUp (f : Function) (n : Nat)
  | eccCorrected (kind : DieKind) (n : Nat) (chan : Option Nat)
  | eccLocal (group : BitVec 64) (sector : Nat)
  | ksendIn (name : BitVec 64) (slot : Nat) (faults : List FaultEntry)
  | proxyInvalidate (line : Nat) (bytes : List Byte) (poisoned : BitVec 4)
  | proxyForward (line : Nat)
  | proxyAnswer (module line : Nat) (bytes : List Byte) (poisoned : BitVec 4) (keeps : Bool)
  | accessEvent (op place : Nat)
  | walkBegins (die ctx va : Nat)
  | unansweredTurn (lane : Option Nat)
  | unansweredEvent (i : Instr)
deriving DecidableEq, Repr

/-- The state of the module. bivTurn has for each Bivouac core, die × 16 + core, the thread that its turn comes to next (06 R158). -/
structure State where
  w : Wave := {}
  lane : Option Nat := none
  g : Group := {}
  groups : List Group := []
  records : List Record := []
  mem : Mem := {}
  ops : List Op := []
  nextOp : Nat := 0
  chains : List Chain := []
  held : List Held := []
  slots : List SlotSet := []
  bivTurn : Tab Nat := []
  xlt : Xlt := {}
  coh : Coh := {}
  svc : MemSvc := {}
  ctxs : Tab Ctx := []
  queues : List Queue := []
  grids : List Grid := []
  fab : Fabric := {}
  host : HostPort := {}
  pkg : Package := {}
  time : BitVec 64 := 0
  fresh : Nat := 0
  inputs : List Input := []
deriving DecidableEq, Repr

/-- Why the machine stops with a fault. The exceptions of the spec are taken as next states (04 R116); nothing of the
spec stops the whole module, so no step raises these but the one named. -/
inductive Fault where
  /-- Raised by a step taken while the module has no power (01 R26, POWER_REMOVAL): the spec gives a module without
  power no behaviour. Safe: nothing is claimed of what follows. -/
  | noPower
deriving DecidableEq, Repr

/-- Why an instruction has no meaning. -/
inductive Refusal where
  /-- Raised by the dispatch for an instruction not modelled yet; no arm does so. Safe. -/
  | notModelled (mnemonic : String)
deriving DecidableEq, Repr

/-- The machine right after power good, with every die but Trailhead held in reset (01 R14, R25): registers at their
Reset column, memory with nothing listed, no wave resident. Values the spec does not give are named in the logs 2-7. -/
def State.reset : State := {}

end Sys2Proof.Machine
end

