-- ==== Sys2Proof/Machine/Ops.lean ====
section
/-!
DEFINITION. The named operations over the registers of the wave in focus, its program counter and masks, and taking a
trap and returning from one (05 R127-R138, 04 R116-R124, 16 R428-R430).
-/

namespace Sys2Proof.Machine

open Sys2Proof

/-! ## Trap causes (04 Table 4-6) -/

abbrev causeIllop : Nat := 0x01
abbrev causeIllopnd : Nat := 0x02
abbrev causeTablerange : Nat := 0x03
abbrev causeEjectwin : Nat := 0x04
abbrev causeStackovf : Nat := 0x05
abbrev causeClaimlock : Nat := 0x06
abbrev causePhasediv : Nat := 0x07
abbrev causeXlate : Nat := 0x08
abbrev causePoison : Nat := 0x09
abbrev causeDielost : Nat := 0x0A
abbrev causeNoroute : Nat := 0x0B
abbrev causeLaunchq : Nat := 0x0C
abbrev causeFmtblk : Nat := 0x0D
abbrev causeBkpt : Nat := 0x0E
abbrev causeTrap : Nat := 0x0F

/-- A trap to be taken: cause, detail, address (04 R116), the lanes it concerns where they are not em (none for em,
04 Table 4-10), whether the saved pc is the following instruction, the fault entry that leaves the wave's list with it
(09 R235), the sectors of global and local memory that met a mismatch and take their poison pattern (01 R33), and the addresses whose walks
ended in a fault (07 R196). -/
structure Trap where
  cause : Nat
  detail : Nat := 0
  addr : Nat := 0
  lanes : Option LaneMask := none
  after : Bool := false
  entry : Option FaultEntry := none
  bad : List Nat := []
  badLoc : List Nat := []
  walks : List Nat := []
deriving DecidableEq, Repr

/-- What an instruction comes to: a next state, or a trap with nothing performed (04 R117). -/
abbrev Res := Except Trap State

/-- One outcome of a step. -/
abbrev Out := Host.Outcome State Fault Refusal

/-! ## Scalar registers and the activity mask (05 R127, R130, R134, R135) -/

/-- The scalar register n; s63 reads zero. -/
def sget (s : State) (n : Nat) : Word := if n = 63 then 0 else Tab.get 0 s.w.sreg n

/-- The lanes of the wave that are ejected. -/
def ejectedMask (w : Wave) : LaneMask := w.ejected.foldl (fun m e => m ||| BitVec.twoPow 96 e.lane) 0

/-- A write of scalar register n: s63 ignores it, and in s60-s62 the bits of ejected lanes stay zero (R130). -/
def sset (s : State) (n : Nat) (v : Word) : State :=
  if n = 63 then s
  else if 60 ≤ n then
    { s with w := { s.w with sreg := Tab.put 0 s.w.sreg n (v &&& ~~~(maskWord (ejectedMask s.w) (n - 60))) } }
  else { s with w := { s.w with sreg := Tab.put 0 s.w.sreg n v } }

/-- The 64-bit value of the even pair sN+1:sN. -/
def sget64 (s : State) (n : Nat) : BitVec 64 := sget s (n + 1) ++ sget s n

/-- A write of the even pair sN+1:sN. -/
def sset64 (s : State) (n : Nat) (v : BitVec 64) : State :=
  sset (sset s n (v.extractLsb' 0 32)) (n + 1) (v.extractLsb' 32 32)

/-- A write of sd, or of the pair when the pair bit is set (13 R323). -/
def sput (s : State) (n : Nat) (pair : Bool) (v : BitVec 64) : State :=
  if pair then sset64 s n v else sset s n (v.extractLsb' 0 32)

/-- Base pair b0-b3: s48-s55 (R134). -/
def baseOf (s : State) (b : BitVec 2) : BitVec 64 := sget64 s (48 + 2 * b.toNat)

/-- The mask em2:em1:em0. -/
def em (s : State) : LaneMask := maskOfWords (sget s 60) (sget s 61) (sget s 62)

/-- Set em0-em2. -/
def setEm (s : State) (m : LaneMask) : State :=
  sset (sset (sset s 60 (maskWord m 0)) 61 (maskWord m 1)) 62 (maskWord m 2)

/-! ## Mode fields (05 Table 5-5) -/

/-- Element type code. -/
def ty (s : State) : Nat := bits s.w.mode.toNat 7 4
/-- Rounding code. -/
def rnd (s : State) : Nat := bits s.w.mode.toNat 10 8
/-- Saturate bit. -/
def sat (s : State) : Bool := bit s.w.mode.toNat 11
/-- Flush bit. -/
def flush (s : State) : Bool := bit s.w.mode.toNat 12
/-- Scope code. -/
def scope (s : State) : Nat := bits s.w.mode.toNat 15 13
/-- Eject threshold. -/
def ejectThreshold (s : State) : Nat := bits s.w.mode.toNat 19 16
/-- Steep form code. -/
def steepForm (s : State) : Nat := bits s.w.mode.toNat 21 20

/-! ## Predicates, guards and lanes (05 R127, R132, R134) -/

/-- Predicate g; g0 is true in every lane. -/
def pget (s : State) (g : Nat) : LaneMask := if g = 0 then BitVec.allOnes 96 else Tab.get 0 s.w.pred g

/-- Write predicate g; a write to g0 is ignored. -/
def pset (s : State) (g : Nat) (m : LaneMask) : State :=
  if g = 0 then s else { s with w := { s.w with pred := Tab.put 0 s.w.pred g m } }

/-- The guard of every lane: g[mode.guard select], inverted when mode.guard invert is set. -/
def guardMask (s : State) : LaneMask :=
  if bit s.w.mode.toNat 3 then ~~~(pget s (bits s.w.mode.toNat 2 0)) else pget s (bits s.w.mode.toNat 2 0)

/-- active(l): the mask bit is set and the guard is true. -/
def activeMask (s : State) : LaneMask := em s &&& guardMask s

/-- helper(l): active with the helper-mask bit set. -/
def helperMask (s : State) : LaneMask := activeMask s &&& s.w.hmask

/-- Active non-helper lanes. -/
def nonHelperMask (s : State) : LaneMask := activeMask s &&& ~~~s.w.hmask

/-- em0-em2 hold a lane that is not a helper lane (09, 15 R390, R399): its helper bit is clear or its guard false. -/
def someNonHelper (s : State) : Bool := (em s &&& ~~~(helperMask s)) != 0

/-! ## Vector registers (05 R134, R136; 04 R119) -/

/-- The wave holds the vector register named n: below v(8n) for n held blocks, and in trap mode 0x70-0x7F. -/
def vHeld (s : State) (n : Nat) : Bool :=
  if s.w.trap.on && decide (112 ≤ n) then true else decide (n < 8 * s.w.vblocks)

/-- The row of words of vector register n, tv0-tv15 for 0x70-0x7F in trap mode. -/
def vrow (s : State) (n : Nat) : Tab Word :=
  if s.w.trap.on && decide (112 ≤ n) then Tab.get [] s.w.trap.tv (n - 112) else Tab.get [] s.w.vreg n

/-- Lane l of vector register n. -/
def vget (s : State) (n l : Nat) : Word := Tab.get 0 (vrow s n) l

/-- Replace the row of vector register n. -/
def vsetRow (s : State) (n : Nat) (r : Tab Word) : State :=
  if s.w.trap.on && decide (112 ≤ n) then
    { s with w := { s.w with trap := { s.w.trap with tv := Tab.put [] s.w.trap.tv (n - 112) r } } }
  else { s with w := { s.w with vreg := Tab.put [] s.w.vreg n r } }

/-- Write f l to vector register n in the lanes of m; the other lanes keep their words (14 R343). -/
def vset (s : State) (n : Nat) (m : LaneMask) (f : Nat → Word) : State :=
  let old := vrow s n
  vsetRow s n (Tab.ofFn 0 96 (fun l => if lane m l then f l else Tab.get 0 old l))

/-! ## Tiles (05 R134, 12 R289) -/

/-- The wave holds tile x. -/
def xHeld (s : State) (x : Nat) : Bool := decide (x < s.w.tiles)

/-- Word c of row r of tile x. -/
def xget (w : Wave) (x r c : Nat) : Word := Tab.get 0 (Tab.get [] w.tile x) (32 * r + c)

/-- Side element r of tile x. -/
def sideGet (w : Wave) (x r : Nat) : Word := Tab.get 0 (Tab.get [] w.side x) r

/-- Set words of tile x, keyed 32 * row + column. -/
def xputAll (w : Wave) (x : Nat) (ws : Tab Word) : Wave :=
  { w with tile := Tab.put [] w.tile x (Tab.putAll 0 (Tab.get [] w.tile x) ws) }

/-- Set side elements of tile x. -/
def sidePutAll (w : Wave) (x : Nat) (ws : Tab Word) : Wave :=
  { w with side := Tab.put [] w.side x (Tab.putAll 0 (Tab.get [] w.side x) ws) }

/-! ## Program counter (13 R313, R368) -/

/-- Go on to the next word of the clause. -/
def advance (s : State) : State := { s with w := { s.w with pc := s.w.pc + 4 } }

/-- Transfer control: the wave enters code at pc (R313). -/
def goto (s : State) (pc : Pc) : State := { s with w := { s.w with pc := pc, clause := none } }

/-- Target of a word offset: pc + 4 + 4 × offset (R368). -/
def target (s : State) (off : Int) : Pc := s.w.pc + 4 + BitVec.ofInt 56 (4 * off)

/-- Bits [55:2] of an address, bits [1:0] taken as zero. -/
def pcOfAddr (a : BitVec 64) : Pc := BitVec.ofNat 56 (alignDown a.toNat 4)

/-! ## Contexts -/

/-- Context c. -/
def ctxGet (s : State) (c : Nat) : Ctx := Tab.get {} s.ctxs c

/-- Set context c. -/
def ctxPut (s : State) (c : Nat) (x : Ctx) : State := { s with ctxs := Tab.put {} s.ctxs c x }

/-! ## Lanes of the wave -/

/-- Lanes that have not executed EXIT. -/
def liveLanes (w : Wave) : LaneMask := ~~~w.gone

/-- The lanes of a trap that concern no lane in particular: em, or every lane that has not executed EXIT where em is
empty (04 R458). -/
def concerned (s : State) (m : LaneMask) : LaneMask := if m = 0 then liveLanes s.w else m

/-! ## Halting (04 R121, 16 R430) -/

/-- A wave stopped at an instruction boundary by its group's halt. -/
def stopWave (w : Wave) : Wave :=
  match w.status with
  | .exited => w
  | .halted => w
  | _ => { w with status := .stopped }

/-- HALT_LOG after a halt (04 Table 4-2): cause, count saturating at 24 bits, pc and handle. -/
def haltLog (h : HaltLog) (cause : Nat) (pc : Pc) (handle : BitVec 64) : HaltLog :=
  { cause := cause, count := min (h.count + 1) (2 ^ 24 - 1), pc := pc.setWidth 32, handle := handle }

/-- A double fault: the wave halts, the group's other waves stop, the context's HALT_LOG is updated (04 R121,
16 R430). HALT_COMPLETE finishes the halt. -/
def halt (s : State) (cause : Nat) : State :=
  let c := ctxGet s s.g.ctx
  let s := ctxPut s s.g.ctx { c with halt := haltLog c.halt cause s.w.pc s.w.handle }
  { s with w := { s.w with status := .halted }, g := { s.g with err := true, peers := s.g.peers.map stopWave } }

/-! ## Taking a trap and returning (04 R116-R120) -/

/-- Remove the first copy of a fault entry. -/
def dropEntry (fs : List FaultEntry) (e : Option FaultEntry) : List FaultEntry :=
  match e with
  | none => fs
  | some x => fs.erase x

/-- The mode of the handler: guard select and guard invert zero (R116). -/
def handlerMode (m : Word) : Word := m &&& 0xFFFFFFF0

/-- trap_entry of R116. The handler's tv0-tv15 start at zero: R119 gives them no value, the model's choice (log 42). -/
def trapEntry (s : State) (t : Trap) : State :=
  let m0 := em s
  let ret := if t.after then s.w.pc + 4 else s.w.pc
  let w := s.w
  let tr : TrapState :=
    { on := true, cause := BitVec.ofNat 32 t.cause, detail := BitVec.ofNat 32 t.detail, pc := ret
      addr := BitVec.ofNat 56 t.addr, em := m0, mode := w.mode, tv := [], stack := [] }
  let w := { w with trap := tr, mode := handlerMode w.mode, status := .ready, rejoinSoft := false }
  let w := { w with keys := { w.keys with faults := dropEntry w.keys.faults t.entry } }
  goto (setEm { s with w := w } (concerned s (t.lanes.getD m0)))
    (BitVec.ofNat 56 (ctxGet s s.g.ctx).trapvec)

/-- The sectors that met a mismatch take their poison pattern (01 R33). -/
def poisonBad (t : Trap) (s : State) : State :=
  { s with
    mem := { s.mem with dev := t.bad.foldl (fun d a => Tab.put 0 d a 0xFFFF) s.mem.dev }
    g := { s.g with ldev := t.badLoc.foldl (fun d a => Tab.put 0 d a 0xFFFF) s.g.ldev }
    xlt := { s.xlt with ended := t.walks.map (fun a => (s.g.die, s.g.ctx, a)) ++ s.xlt.ended } }

/-- The fault entry that a trap reports leaves the wave's list (09 R235). -/
def forgetEntry (t : Trap) (s : State) : State :=
  { s with w := { s.w with keys := { s.w.keys with faults := dropEntry s.w.keys.faults t.entry } } }

/-- An ejected lane's fault is left for its recall. -/
def markLane (s : State) : State := { s with w := { s.w with laneFault := true } }

/-- Where a trap leads. An ejected lane that faults is recalled instead, with nothing performed (06 R160). In trap mode, and
with trapvec zero, it is a double fault (R116, R121, 16 R430). -/
def raiseTrap (t : Trap) (s : State) : State :=
  if s.lane.isSome then markLane s
  else if s.w.trap.on then halt s s.w.trap.cause.toNat
  else if (ctxGet s s.g.ctx).trapvec = 0 then halt (forgetEntry t s) t.cause
  else trapEntry s t

/-- Take a trap, the sectors that met a mismatch poisoned. -/
def takeTrap (t : Trap) (s : State) : State := raiseTrap t (poisonBad t s)

/-- TRET: em0-em2, mode and pc come back and the shadow registers are discarded (R120, 16 R429). Lanes that a recall without room left
on their threads are free again, once the trap of that recall has been taken (06 Table 6-5). -/
def trapReturn (s : State) : State :=
  let t := s.w.trap
  let s1 := { s with w := { s.w with
    mode := t.mode, trap := { t with on := false, tv := [], stack := [] }
    ejected := s.w.ejected.map (fun e => { e with stuck := e.stuck && s.w.stackDue.isSome }) } }
  goto (setEm s1 t.em) t.pc

/-- What an instruction answers: its next state, or the trap taken. -/
def commit (s : State) (r : Res) : Out :=
  .next (match r with
    | .ok t => t
    | .error e => takeTrap e s)

/-- An instruction that goes on to the next word, and with an all-zero mask does nothing else (06 R172). -/
def run (s : State) (r : Res) : Out :=
  if em s = 0 then .next (advance s) else commit s (r.map advance)

/-- A precise trap with no address and no lane of its own. -/
def trapOf (cause detail : Nat) : Trap := { cause := cause, detail := detail }

/-- Go on when a check holds, or raise. -/
def check (ok : Bool) (t : Trap) : Except Trap Unit := if ok then .ok () else .error t

end Sys2Proof.Machine
end

