-- ==== Sys2Proof/Machine/Dies.lean ====
section
/-!
DEFINITION. Dies and their numbers, the ready map and the messages to the host (01 R11, R18, R37, R38, R43; 02 R46).
-/

namespace Sys2Proof.Machine

open Sys2Proof

/-- A mask with a bit set or cleared. -/
def setBit {n : Nat} (m : BitVec n) (i : Nat) (b : Bool) : BitVec n :=
  if b then m ||| BitVec.twoPow n i else m &&& ~~~(BitVec.twoPow n i)

/-- Change the package. -/
def withPkg (f : Package → Package) (s : State) : State := { s with pkg := f s.pkg }

/-- Raise an MSI-X vector; its message waits for an acknowledgement (02 R46, Table 2-3). -/
def raiseMsix (n : Nat) (s : State) : State :=
  { s with host := { s.host with msix := s.host.msix ++ [n], unacked := s.host.unacked ++ [n] } }

/-- A service log entry. -/
def logEvent (e : LogEvent) (s : State) : State := { s with host := { s.host with log := s.host.log ++ [e] } }

/-- The active port is trained and its link is up (02 R48). -/
def activeUp (s : State) : Bool := s.host.trained.getLsbD s.host.active && !s.host.down.getLsbD s.host.active

/-! ## Physical dies of virtual numbers (R11, R18) -/

/-- The physical die that a virtual number is bound to; one bound to a fenced die counts as unbound. -/
def boundDie (xs : List Nat) (count v : Nat) (fenced : Nat → Bool) : Option Nat :=
  match xs[v]? with
  | none => none
  | some n => if n < count ∧ fenced n = false then some n else none

/-- The physical compute die of a virtual number. -/
def boundC (p : Package) (v : Nat) : Option Nat :=
  boundDie p.cfg.cdie 32 v (fun n => p.cfg.cfence.getLsbD n || p.fencedC.getLsbD n)
/-- The physical memory die of a virtual number. -/
def boundM (p : Package) (v : Nat) : Option Nat := boundDie p.cfg.mdie 16 v (fun n => p.cfg.mfence.getLsbD n)
/-- The physical I/O die of a virtual number. -/
def boundIo (p : Package) (v : Nat) : Option Nat := boundDie p.cfg.iodie 2 v (fun n => p.cfg.iofence.getLsbD n)

/-- Virtual numbers bound to a physical compute die. -/
def virtualC (p : Package) (n : Nat) : List Nat := (List.range 32).filter (fun v => boundC p v == some n)
/-- Virtual numbers bound to a physical memory die. -/
def virtualM (p : Package) (n : Nat) : List Nat := (List.range 16).filter (fun v => boundM p v == some n)
/-- Virtual numbers bound to a physical I/O die. -/
def virtualIo (p : Package) (n : Nat) : List Nat := (List.range 2).filter (fun v => boundIo p v == some n)

/-! ## Ready map (R37, R38) -/

/-- Change the ready map; a change of any bit counts a generation and raises vector 0. -/
def setReady (f : Ready → Ready) (s : State) : State :=
  let r := f s.pkg.ready
  if r = s.pkg.ready then s
  else raiseMsix 0 { s with pkg := { s.pkg with ready := { r with gen := r.gen + 1 } } }

/-- A function of a released physical die has come up (R20). -/
def cameUp (p : Package) (f : Function) (n : Nat) : Bool := !p.late.contains (f, n)

/-- The ready bits of a virtual compute die as its physical die stands. -/
def computeBits (p : Package) (v : Nat) (r : Ready) : Ready :=
  let up (f : Function) : Bool := (boundC p v).any (fun n => p.relC.getLsbD n && cameUp p f n)
  { r with cdie := setBit r.cdie v (up .cores), disp := setBit r.disp v (up .dispatch) }

/-- The ready bits of a virtual memory die: none while it is offline. -/
def memoryBits (p : Package) (offline : BitVec 16) (v : Nat) (r : Ready) : Ready :=
  let die (g : Nat → Bool) : Bool := !offline.getLsbD v && (boundM p v).any (fun n => p.relM.getLsbD n && g n)
  { r with
    mbase := setBit r.mbase v (die (cameUp p .base)), mcache := setBit r.mcache v (die (cameUp p .mcache))
    chan := (List.range 16).foldl (fun c i => setBit c (16 * v + i)
      (die (fun n => p.chanUp.getLsbD (16 * n + i) && !p.cfg.chfence.getLsbD (16 * n + i)))) r.chan }

/-- The ready bits of a virtual I/O die, but those of its links. -/
def ioBits (p : Package) (trained : BitVec 2) (v : Nat) (r : Ready) : Ready :=
  { r with
    reduce := setBit r.reduce v ((boundIo p v).any (fun n => p.relIo.getLsbD n && cameUp p .reduce n))
    host := setBit r.host v ((boundIo p v).any (fun n => trained.getLsbD n)) }

/-- Bring the ready bits of virtual compute dies up to date. -/
def refreshC (vs : List Nat) (s : State) : State := setReady (fun r => vs.foldl (fun r v => computeBits s.pkg v r) r) s
/-- Bring the ready bits of virtual memory dies up to date. -/
def refreshM (vs : List Nat) (s : State) : State :=
  setReady (fun r => vs.foldl (fun r v => memoryBits s.pkg s.svc.offline v r) r) s
/-- Bring the ready bits of virtual I/O dies up to date. -/
def refreshIo (vs : List Nat) (s : State) : State :=
  setReady (fun r => vs.foldl (fun r v => ioBits s.pkg s.host.trained v r) r) s

/-! ## Issue gating (R41, R43) -/

/-- The compute die of the focus is issue-gated. -/
def issueGated (s : State) : Bool := (boundC s.pkg s.g.die).any (fun n => s.pkg.gatedC.getLsbD n)

end Sys2Proof.Machine
end

