-- ==== Sys2Proof/Machine/Num.lean ====
section
/-!
DEFINITION. Number formats, exact arithmetic on dyadic values, rounding and conversion (11 R265-R279). A value is a
NaN, an infinity or a signed dyadic; every operation is exact, and one rounding at the end gives bits and astat flags.
-/

namespace Sys2Proof.Num

/-! ## astat flags (05 Table 5-9) -/

abbrev fInv : Word := 0x01
abbrev fDz : Word := 0x02
abbrev fOvf : Word := 0x04
abbrev fUnf : Word := 0x08
abbrev fInx : Word := 0x10
abbrev fSat : Word := 0x20
abbrev fIdiv : Word := 0x40

/-! ## Values -/

/-- A floating-point value: fin neg m e is (-1)^neg × m × 2^e, a signed zero when m is 0. -/
inductive Val where
  | nan
  | inf (neg : Bool)
  | fin (neg : Bool) (m : Nat) (e : Int)
deriving DecidableEq, Repr

/-- The value of an integer. -/
def Val.ofInt (x : Int) : Val := .fin (decide (x < 0)) x.natAbs 0

/-- Negation; NaN stays NaN. -/
def Val.neg : Val → Val
  | .nan => .nan
  | .inf n => .inf (!n)
  | .fin n m e => .fin (!n) m e

/-- The value is a zero. -/
def Val.isZero : Val → Bool
  | .fin _ 0 _ => true
  | _ => false

/-- m × 2^e as an integer multiple of 2^lo, for lo ≤ e. -/
def scaled (neg : Bool) (m : Nat) (e lo : Int) : Int :=
  if neg then -((m * 2 ^ (e - lo).toNat : Nat) : Int) else ((m * 2 ^ (e - lo).toNat : Nat) : Int)

/-- Exact sum with the zero signs of R275 under rounding mode rm, and INV for opposite infinities (R276). -/
def add (rm : Nat) : Val → Val → Val × Word
  | .nan, _ => (.nan, 0)
  | _, .nan => (.nan, 0)
  | .inf a, .inf b => if a = b then (.inf a, 0) else (.nan, fInv)
  | .inf a, .fin .. => (.inf a, 0)
  | .fin .., .inf b => (.inf b, 0)
  | .fin na ma ea, .fin nb mb eb =>
    let lo := min ea eb
    let s := scaled na ma ea lo + scaled nb mb eb lo
    if s = 0 then
      if ma = 0 ∧ mb = 0 ∧ na = nb then (.fin na 0 0, 0) else (.fin (rm == 3) 0 0, 0)
    else (.fin (decide (s < 0)) s.natAbs lo, 0)

/-- Exact product; Inf × 0 sets INV (R276). -/
def mul : Val → Val → Val × Word
  | .nan, _ => (.nan, 0)
  | _, .nan => (.nan, 0)
  | .inf a, .inf b => (.inf (a != b), 0)
  | .inf a, .fin b m _ => if m = 0 then (.nan, fInv) else (.inf (a != b), 0)
  | .fin a m _, .inf b => if m = 0 then (.nan, fInv) else (.inf (a != b), 0)
  | .fin a m e, .fin b m' e' => (.fin (a != b) (m * m') (e + e'), 0)

/-- a × b + c exact. An Inf × 0 product sets INV whatever c is (R276). -/
def fma (rm : Nat) (a b c : Val) : Val × Word :=
  ((add rm (mul a b).1 c).1, (mul a b).2 ||| (add rm (mul a b).1 c).2)

/-! ## Formats (R267-R269) -/

/-- An IEEE-style format: exponent and fraction widths, bias, and whether exponent all ones holds Inf and NaN. -/
structure Fmt where
  eb : Nat
  fb : Nat
  bias : Nat
  inf : Bool
deriving DecidableEq, Repr

abbrev f32 : Fmt := { eb := 8, fb := 23, bias := 127, inf := true }
abbrev bf16 : Fmt := { eb := 8, fb := 7, bias := 127, inf := true }
abbrev f16 : Fmt := { eb := 5, fb := 10, bias := 15, inf := true }
abbrev e5m2 : Fmt := { eb := 5, fb := 2, bias := 15, inf := true }
abbrev e4m3 : Fmt := { eb := 4, fb := 3, bias := 7, inf := false }

/-- Exponent of the format's smallest quantum. -/
def Fmt.qmin (f : Fmt) : Int := 1 - f.bias - f.fb

/-- Bit pattern of the sign. -/
def Fmt.signBit (f : Fmt) (neg : Bool) : Nat := if neg then 2 ^ (f.eb + f.fb) else 0

/-- Magnitude code of the largest finite value (Table 11-2). -/
def Fmt.maxCode (f : Fmt) : Nat := if f.inf then (2 ^ f.eb - 1) * 2 ^ f.fb - 1 else 2 ^ (f.eb + f.fb) - 2

/-- Magnitude code of Inf. -/
def Fmt.infCode (f : Fmt) : Nat := (2 ^ f.eb - 1) * 2 ^ f.fb

/-- The canonical NaN (R268). -/
def Fmt.nanCode (f : Fmt) : Nat := if f.inf then f.infCode + 2 ^ (f.fb - 1) else 2 ^ (f.eb + f.fb) - 1

/-- The value of a bit pattern (R267). -/
def Fmt.decode (f : Fmt) (x : Nat) : Val :=
  let neg := bit x (f.eb + f.fb)
  let ex := x / 2 ^ f.fb % 2 ^ f.eb
  let fr := x % 2 ^ f.fb
  if f.inf ∧ ex = 2 ^ f.eb - 1 then (if fr = 0 then .inf neg else .nan)
  else if !f.inf ∧ ex = 2 ^ f.eb - 1 ∧ fr = 2 ^ f.fb - 1 then .nan
  else if ex = 0 then .fin neg fr f.qmin
  else .fin neg (2 ^ f.fb + fr) (f.qmin + (ex - 1 : Nat))

/-- Round n + r / d, r below d, to an integer under a rounding mode (Table 11-4). -/
def roundUnit (rm : Nat) (neg : Bool) (n r d : Nat) : Nat :=
  if r = 0 then n
  else if rm = 0 then (if 2 * r > d ∨ (2 * r = d ∧ n % 2 = 1) then n + 1 else n)
  else if rm = 1 then n
  else if rm = 2 then (if neg then n else n + 1)
  else if rm = 3 then (if neg then n + 1 else n)
  else (if 2 * r ≥ d then n + 1 else n)

/-- m × 2^e rounded to a multiple of 2^q: the multiple, and whether it is inexact. -/
def roundAt (rm : Nat) (neg : Bool) (m : Nat) (e q : Int) : Nat × Bool :=
  if q ≤ e then (m * 2 ^ (e - q).toNat, false)
  else
    (roundUnit rm neg (m / 2 ^ (q - e).toNat) (m % 2 ^ (q - e).toNat) (2 ^ (q - e).toNat),
      m % 2 ^ (q - e).toNat != 0)

/-- Whether an overflow goes to the largest finite value (Table 11-5). -/
def toMax (rm : Nat) (neg : Bool) : Bool := rm == 1 || (rm == 2 && neg) || (rm == 3 && !neg)

/-- How a destination answers an overflow: arithmetic (Table 11-5), or the saturating conversion of Table 11-7. -/
inductive OnOverflow where
  | arith | saturate
deriving DecidableEq, Repr

/-- Bits and flags of a finite non-zero value rounded to a format (R272-R274, R279). -/
def roundFin (f : Fmt) (rm : Nat) (fl : Bool) (ov : OnOverflow) (neg : Bool) (m : Nat) (e : Int) : Nat × Word :=
  let q := max ((Nat.log2 m : Int) + e - f.fb) f.qmin
  let p := roundAt rm neg m e q
  let code := (q - f.qmin).toNat * 2 ^ f.fb + p.1
  let inx : Word := if p.2 then fInx else 0
  if code > f.maxCode then
    if !f.inf then
      if toMax rm neg then (f.signBit neg + f.maxCode, fInx)
      else if ov = .saturate then (f.signBit neg + f.maxCode, fSat ||| fInx)
      else (f.nanCode, fOvf ||| fInx)
    else if ov = .saturate then (f.signBit neg + f.maxCode, fSat ||| fInx)
    else if toMax rm neg then (f.signBit neg + f.maxCode, fOvf ||| fInx)
    else (f.signBit neg + f.infCode, fOvf ||| fInx)
  else if code < 2 ^ f.fb then
    if fl then (f.signBit neg, fUnf ||| fInx)
    else (f.signBit neg + code, if p.2 then fUnf ||| fInx else 0)
  else (f.signBit neg + code, inx)

/-- Bits and flags of a value rounded to a format. Infinities are exact but in E4M3 (R277, R279). -/
def round (f : Fmt) (rm : Nat) (fl : Bool) (ov : OnOverflow) : Val → Nat × Word
  | .nan => (f.nanCode, 0)
  | .inf n =>
    if f.inf then (f.signBit n + f.infCode, 0)
    else if ov = .saturate then (f.signBit n + f.maxCode, fSat) else (f.nanCode, fInv)
  | .fin n 0 _ => (f.signBit n, 0)
  | .fin n (m + 1) e => roundFin f rm fl ov n (m + 1) e

/-- An F32 operand: a subnormal is read as zero of its sign when flush is set (R274). -/
def inF32 (fl : Bool) (x : Nat) : Val :=
  if fl ∧ x / 2 ^ 23 % 2 ^ 8 = 0 then .fin (bit x 31) 0 0 else f32.decode x

/-! ## M8 (R269, R278) -/

/-- 256 times the magnitude of M8 code c, for 0x02 to 0x7F (Table 11-3). -/
def m8Mag (c : Nat) : Nat :=
  if 0x40 ≤ c then 8 * 2 ^ bits c 5 5 * (32 + bits c 4 0)
  else if 0x20 ≤ c then 4 * 2 ^ bits c 4 4 * (16 + bits c 3 0)
  else if 0x10 ≤ c then 256 * 2 ^ bits c 3 2 * (4 + bits c 1 0)
  else if 0x08 ≤ c then 2 * 2 ^ bits c 2 1 * (2 + bits c 0 0)
  else if 0x04 ≤ c then 256 * 64 * 2 ^ bits c 1 0
  else if 0x02 ≤ c then 2 ^ bits c 0 0
  else 0

/-- The value of an M8 byte. -/
def m8Decode (x : Nat) : Val :=
  let c := x % 128
  let neg := bit x 7
  if c = 1 then .inf neg
  else if c = 0 then (if neg then .nan else .fin false 0 0)
  else .fin neg (m8Mag c) (-8)

/-- Distance of two naturals. -/
def dist (a b : Nat) : Nat := (a - b) + (b - a)

/-- The M8 code nearest to x / d in units of 1/256, a tie going to the code with bit 0 clear and, at 1/512, to 0. -/
def m8Nearest (x d : Nat) : Nat :=
  (List.range 126).foldl (fun best i =>
    let c := i + 2
    let dc := dist x (m8Mag c * d)
    let db := dist x (m8Mag best * d)
    if dc < db ∨ (dc = db ∧ best % 2 = 1) then c else best) 0

/-- Conversion to M8 (R278). -/
def m8Round (sat : Bool) : Val → Nat × Word
  | .nan => (0x80, 0)
  | .inf n => (if n then 0x81 else 0x01, 0)
  | .fin _ 0 _ => (0, 0)
  | .fin n (m' + 1) e =>
    let m := m' + 1
    let x := if -8 ≤ e then m * 2 ^ (e + 8).toNat else m
    let d := if -8 ≤ e then 1 else 2 ^ (-8 - e).toNat
    let s := if n then 0x80 else 0
    if x ≥ 768 * 256 * d then (if sat then (s + 0x07, fSat ||| fInx) else (s + 0x01, fOvf ||| fInx))
    else if x > 512 * 256 * d then (s + 0x07, fInx)
    else
      let c := m8Nearest x d
      if c = 0 then (0, fUnf ||| fInx)
      else (s + c, if m8Mag c * d = x then 0 else fInx)

/-! ## Conversion between element formats (R277-R279) -/

/-- Width of an integer element type code of Table 5-6, N4x8 as N4; 0 for no integer type. -/
def intWidth (t : Nat) : Nat :=
  match t with
  | 0x0 => 32 | 0x1 => 32 | 0x2 => 64 | 0x3 => 64 | 0x5 => 16 | 0x6 => 16 | 0x8 => 8 | 0x9 => 8 | 0xF => 4 | _ => 0

/-- Signed integer type codes: I32, I64, I16, I8. -/
def intSigned (t : Nat) : Bool := t == 0x1 || t == 0x3 || t == 0x6 || t == 0x9

/-- The IEEE-style format of a type code. -/
def fmtOf (t : Nat) : Fmt :=
  match t with
  | 0x4 => f32 | 0xA => f16 | 0xB => bf16 | 0xC => e4m3 | _ => e5m2

/-- Integer value of an element. -/
def intOf (t x : Nat) : Int := if intSigned t then sext x (intWidth t) else ((x % 2 ^ intWidth t : Nat) : Int)

/-- Least and greatest value of an integer type. -/
def intMin (t : Nat) : Int := if intSigned t then -((2 ^ (intWidth t - 1) : Nat) : Int) else 0
def intMax (t : Nat) : Int :=
  if intSigned t then ((2 ^ (intWidth t - 1) : Nat) : Int) - 1 else ((2 ^ intWidth t : Nat) : Int) - 1

/-- Clamp to an integer type's range. -/
def clamp (t : Nat) (x : Int) : Int := max (intMin t) (min (intMax t) x)

/-- The value of a float element of type t; F32 subnormals flush when fl is set. -/
def floatOf (t : Nat) (fl : Bool) (x : Nat) : Val :=
  if t = 0x4 then inF32 fl x else if t = 0xE then m8Decode x else (fmtOf t).decode x

/-- Round a finite value to an integer. -/
def toInt (rm : Nat) (neg : Bool) (m : Nat) (e : Int) : Int × Bool :=
  let p := roundAt rm neg m e 0
  (if neg then -(p.1 : Int) else (p.1 : Int), p.2)

/-- convert(x, src, dst) of Table 11-7: low bits of the destination element, and flags. -/
def convert (rm : Nat) (sat fl : Bool) (src dst x : Nat) : Nat × Word :=
  if intWidth src ≠ 0 then
    let v := intOf src x
    if intWidth dst ≠ 0 then
      if sat then (lowBits (clamp dst v) (intWidth dst), if clamp dst v = v then 0 else fSat)
      else (lowBits v (intWidth dst), 0)
    else if dst = 0xE then m8Round sat (Val.ofInt v)
    else round (fmtOf dst) rm (fl && dst == 0x4) (if sat ∧ dst = 0xC then .saturate else .arith) (Val.ofInt v)
  else
    let v := floatOf src fl x
    if intWidth dst ≠ 0 then
      match v with
      | .nan => (0, fInv)
      | .inf n => (lowBits (if n then intMin dst else intMax dst) (intWidth dst), fInv)
      | .fin n m e =>
        let r := toInt rm n m e
        if clamp dst r.1 = r.1 then (lowBits r.1 (intWidth dst), if r.2 then fInx else 0)
        else (lowBits (clamp dst r.1) (intWidth dst), fInv)
    else if dst = 0xE then m8Round sat v
    else round (fmtOf dst) rm (fl && dst == 0x4) (if sat then .saturate else .arith) v

/-! ## Square root, reciprocal and transcendental functions (R273, 14 Table 14-5) -/

/-- Integer square root, n result bits. -/
def isqrt (x : Nat) : Nat → Nat → Nat
  | 0, r => r
  | n + 1, r => if (r + 2 ^ n) * (r + 2 ^ n) ≤ x then isqrt x n (r + 2 ^ n) else isqrt x n r

/-- A value known to lie strictly between m and m + 1 units of 2^e, or to equal m units. -/
def between (neg : Bool) (m : Nat) (e : Int) (exact : Bool) : Val :=
  if exact then .fin neg m e else .fin neg (2 * m + 1) (e - 1)

/-- 1 ÷ (m × 2^e), to 80 bits and a sticky bit. -/
def recip (neg : Bool) (m : Nat) (e : Int) : Val :=
  let k := 80 + Nat.log2 m
  between neg (2 ^ k / m) (-e - k) (2 ^ k % m = 0)

/-- sqrt(m × 2^e), to 64 bits or more and a sticky bit. -/
def sqrtVal (m : Nat) (e : Int) : Val :=
  let m1 := if e % 2 = 0 then m else 2 * m
  let e1 := if e % 2 = 0 then e else e - 1
  let x := m1 * 2 ^ 128
  let r := isqrt x (Nat.log2 x / 2 + 1) 0
  between false r (e1 / 2 - 64) (r * r = x)

/-- 1 ÷ sqrt(m × 2^e), to 64 bits or more and a sticky bit. -/
def rsqrtVal (m : Nat) (e : Int) : Val :=
  let m1 := if e % 2 = 0 then m else 2 * m
  let e1 := if e % 2 = 0 then e else e - 1
  let k := 80 + Nat.log2 m1
  let r := isqrt (2 ^ (2 * k) / m1) (k + 1) 0
  between false r (-(e1 / 2) - k) (r * r * m1 = 2 ^ (2 * k))

/-- Fraction bits of the fixed-point numbers below. -/
abbrev prec : Nat := 320

/-- Sum of t^(2j+1) / (2j+1) in fixed point: pw is t^(2j+1), t2 is t². n terms from j on. -/
def atanhSum (t2 : Nat) : Nat → Nat → Nat → Nat
  | 0, _, _ => 0
  | n + 1, j, pw => pw / (2 * j + 1) + atanhSum t2 n (j + 1) (pw * t2 / 2 ^ prec)

/-- atanh of a fixed-point t at most 1/3. -/
def atanhFix (t : Nat) : Nat := atanhSum (t * t / 2 ^ prec) 110 0 t

/-- ln 2 = 2 atanh(1/3) in fixed point. -/
def ln2Fix : Nat := 2 * atanhFix (2 ^ prec / 3)

/-- Sum of r^j / j! in fixed point, n terms from term on. -/
def expSum (r : Nat) : Nat → Nat → Nat → Nat
  | 0, _, _ => 0
  | n + 1, j, term => term + expSum r n (j + 1) (term * r / (2 ^ prec * (j + 1)))

/-- e^r for a fixed-point r below 1. -/
def expFix (r : Nat) : Nat := expSum r 80 0 (2 ^ prec)

/-- 2^x for finite x. -/
def exp2Val (neg : Bool) (m : Nat) (e : Int) : Val :=
  if m = 0 then .fin false 1 0
  else if (Nat.log2 m : Int) + e ≥ 9 then .fin false 3 (if neg then -1000 else 1000)
  else
    let lo := min e 0
    let x := scaled neg m e lo
    let d : Nat := 2 ^ (-lo).toNat
    let n := x.fdiv d
    let fr := (x.fmod d).toNat
    if fr = 0 then .fin false 1 n
    else between false (expFix (fr * ln2Fix / d)) (n - prec) false

/-- log2 of a positive m × 2^e. -/
def log2Val (m : Nat) (e : Int) : Val :=
  let k := Nat.log2 m
  if m = 2 ^ k then Val.ofInt (k + e)
  else
    let one := 2 ^ k
    let t := (m - one) * 2 ^ prec / (m + one)
    let l := 2 * atanhFix t * 2 ^ prec / ln2Fix
    let s : Int := (k + e) * (2 ^ prec : Nat) + l
    if 0 ≤ s then between false s.natAbs (-prec) false else between true (s.natAbs - 1) (-prec) false

/-- tanh of a finite non-zero m × 2^e: just below x where x is tiny, just below 1 where it is large. -/
def tanhVal (neg : Bool) (m : Nat) (e : Int) : Val :=
  let h := (Nat.log2 m : Int) + e
  if h < -40 then .fin neg (m * 2 ^ 90 - 1) (e - 90)
  else if h ≥ 6 then .fin neg (2 ^ 90 - 1) (-90)
  else
    let t := if -(prec : Int) ≤ e + 1 then m * 2 ^ (e + 1 + prec).toNat else m / 2 ^ (-(e + 1 + prec)).toNat
    let n := t / ln2Fix
    let ex := expFix (t % ln2Fix) * 2 ^ n
    between neg ((ex - 2 ^ prec) * 2 ^ prec / (ex + 2 ^ prec)) (-prec) false

end Sys2Proof.Num
end

