-- ==== Sys2Proof/Machine/Flags.lean ====
section
/-!
DEFINITION. The arithmetic status register astat (05 R143, Table 5-9) and the saturation of integer results (14 R345).
-/

namespace Sys2Proof.Machine

open Sys2Proof

/-- Sticky bits set in astat. -/
def raiseFlags (s : State) (f : Word) : State := { s with w := { s.w with astat := s.w.astat ||| f } }

/-- Union of the flags of the lanes of a mask. -/
def laneFlags (m : LaneMask) (f : Nat → Word) : Word :=
  (List.range 96).foldl (fun acc l => if lane m l then acc ||| f l else acc) 0

/-- An exact integer result of w bits: clamped with SAT when saturating, else its low bits (R345). -/
def fitInt (w : Nat) (signed saturate : Bool) (x : Int) : Nat × Word :=
  let lo : Int := if signed then -((2 ^ (w - 1) : Nat) : Int) else 0
  let hi : Int := if signed then ((2 ^ (w - 1) : Nat) : Int) - 1 else ((2 ^ w : Nat) : Int) - 1
  if saturate then
    if x < lo then (lowBits lo w, Num.fSat) else if hi < x then (lowBits hi w, Num.fSat) else (lowBits x w, 0)
  else (lowBits x w, 0)

end Sys2Proof.Machine
end

