-- ==== Sys2Proof/Machine/Operands.lean ====
section
/-!
DEFINITION. Source operands of formats V and S (13 R324, 05 R137, 14 R342): which codes an instruction accepts, which
registers it must hold, and the value of each code under an element type.
-/

namespace Sys2Proof.Machine

open Sys2Proof

/-! ## Element types (05 Table 5-6, 14 R342) -/

/-- Width in bits of the elements of a type code; the reserved code 0x7 counts as N32. -/
def elemWidth (t : Nat) : Nat :=
  match t with
  | 0x2 => 64 | 0x3 => 64
  | 0x5 => 16 | 0x6 => 16 | 0xA => 16 | 0xB => 16
  | 0x8 => 8 | 0x9 => 8 | 0xC => 8 | 0xD => 8 | 0xE => 8
  | 0xF => 4
  | _ => 32

/-- Number of elements of a 32-bit lane. -/
def elemCount (t : Nat) : Nat := if elemWidth t = 64 then 1 else 32 / elemWidth t

/-- n copies of a w-bit element. -/
def fill (w x : Nat) : Nat → Nat
  | 0 => 0
  | n + 1 => x % 2 ^ w + 2 ^ w * fill w x n

/-- One element in every element place of a lane. -/
def fillLane (t x : Nat) : Word :=
  if elemWidth t < 32 then BitVec.ofNat 32 (fill (elemWidth t) x (elemCount t)) else BitVec.ofNat 32 x

/-- Element i of a lane of w-bit elements. -/
def elemAt (w x i : Nat) : Nat := x / 2 ^ (w * i) % 2 ^ w

/-- A lane made of n elements of w bits. -/
def packElems (w : Nat) (f : Nat → Nat) : Nat → Nat → Nat
  | _, 0 => 0
  | i, n + 1 => f i % 2 ^ w + 2 ^ w * packElems w f (i + 1) n

/-- Floating-point type codes. -/
def isFloat (t : Nat) : Bool := t == 0x4 || (decide (0xA ≤ t) && decide (t ≤ 0xE))

/-- Bits of an exact value in a float type, by round_rne and, for M8, by R278 (R324). -/
def floatBits (t : Nat) (v : Num.Val) : Nat :=
  if t = 0xE then (Num.m8Round false v).1 else (Num.round (Num.fmtOf t) 0 false .arith v).1

/-! ## Constants (13 R324) -/

/-- Value of float constant code 0xD8 + k: ±0.5, ±1, ±2, ±4. -/
def fltConst (k : Nat) : Num.Val := .fin (k % 2 == 1) 1 (((k / 2 : Nat) : Int) - 1)

/-- Lane value of an integer constant under a type. -/
def intConst (t : Nat) (v : Int) : Word :=
  if isFloat t then fillLane t (floatBits t (Num.Val.ofInt v)) else fillLane t (lowBits v (min 32 (elemWidth t)))

/-- Lane value of a float constant under a type: the F32 pattern as it stands under an integer type. -/
def fltConstLane (t k : Nat) : Word :=
  if isFloat t then fillLane t (floatBits t (fltConst k)) else BitVec.ofNat 32 (floatBits 0x4 (fltConst k))

/-- Value of an index operand in lane l (05 R137) (log 17). -/
def indexVal (s : State) (k l : Nat) : Nat :=
  match k with
  | 0 => l
  | 1 => l / 4
  | 2 => l % 4
  | 3 => s.w.idx
  | _ => s.g.linear

/-! ## Values -/

/-- The 32-bit value that a source supplies to lane l under type t. -/
def srcLane (s : State) (t : Nat) (c : Src) (l : Nat) : Word :=
  match c with
  | .v r => vget s r.toNat l
  | .s r => sget s r.toNat
  | .nat k => intConst t k.toNat
  | .neg k => intConst t (-1 - (k.toNat : Int))
  | .flt k => fltConstLane t k.toNat
  | .idx k => fillLane t (indexVal s k.toNat l)
  | .resv _ => 0

/-- The value of a scalar source: 32 bits zero-extended, or 64 bits with the pair bit set (R324, 14 R344). -/
def srcScalar (s : State) (pair : Bool) (c : Src) : BitVec 64 :=
  if pair then
    match c with
    | .s r => sget64 s r.toNat
    | .nat k => BitVec.ofNat 64 k.toNat
    | .neg k => BitVec.ofInt 64 (-1 - (k.toNat : Int))
    | .flt k => (fltConstLane 0x0 k.toNat).setWidth 64
    | .idx k => BitVec.ofNat 64 (indexVal s k.toNat 0 % 2 ^ 32)
    | _ => 0
  else (srcLane s (ty s) c 0).setWidth 64

/-! ## Checks (13 R329, 05 R136) -/

/-- The code is no reserved operand. -/
def srcNotReserved : Src → Bool
  | .resv _ => false
  | _ => true

/-- The code is an operand of format S: a scalar, a constant, or index code 0xE3 or 0xE4 (R324). -/
def srcScalarOk : Src → Bool
  | .s _ => true
  | .nat _ => true
  | .neg _ => true
  | .flt _ => true
  | .idx k => decide (3 ≤ k.toNat)
  | _ => false

/-- The code is an even register where it names a pair. -/
def srcEven (pair : Bool) : Src → Bool
  | .s r => !pair || r.toNat % 2 == 0
  | _ => true

/-- The wave holds the vector register that the code names. -/
def srcHeld (s : State) : Src → Bool
  | .v r => vHeld s r.toNat
  | _ => true

/-- Checks of a vector instruction: operand codes, the type it accepts, then the registers held (log 18). -/
def checkV (s : State) (codes : List Src) (typeOk : Bool) (held : List Nat) : Except Trap Unit := do
  check (codes.all srcNotReserved) (trapOf causeIllopnd 0)
  check typeOk (trapOf causeIllopnd 4)
  check (codes.all (srcHeld s) && held.all (vHeld s)) (trapOf causeIllopnd 1)

/-- Checks of a scalar instruction: operand codes of format S, then even pairs (05 R135). -/
def checkS (d : Nat) (pair : Bool) (codes : List Src) : Except Trap Unit := do
  check (codes.all srcScalarOk) (trapOf causeIllopnd 0)
  check (codes.all (srcEven pair) && (!pair || d % 2 == 0)) (trapOf causeIllopnd 5)

end Sys2Proof.Machine
end

