-- ==== Sys2Proof/Machine/Mem.lean ====
section
/-!
DEFINITION. Bytes and check values of global and local memory (01 R30-R35; 02 R49; 07 R173-R175). Global memory is
keyed by 52-bit fabric physical address, local memory by offset in the group's allocation. A byte that nothing has
written reads 0 (log 3).
-/

namespace Sys2Proof.Machine

open Sys2Proof

/-! ## Check values (R30) -/

/-- One bit of the CRC-16 with polynomial 0x8BB7. -/
def crcBit (crc : Nat) (b : Bool) : Nat :=
  let top := bit crc 15 != b
  let sh := crc * 2 % 2 ^ 16
  if top then Nat.xor sh 0x8BB7 else sh

/-- One byte, most significant bit first. -/
def crcByte (crc : Nat) (b : Byte) : Nat :=
  (List.range 8).foldl (fun c i => crcBit c (bit b.toNat (7 - i))) crc

/-- The CRC-16 of bytes in ascending address order: the good value of a sector (R30). -/
def crc16 (bytes : List Byte) : Nat := bytes.foldl crcByte 0

/-! ## Global memory -/

/-- The byte at a physical address. -/
def memByte (s : State) (a : Nat) : Byte := Tab.get 0 s.mem.cells a

/-- n bytes from a on. -/
def memBytes (s : State) (a n : Nat) : List Byte := (List.range n).map (fun i => memByte s (a + i))

/-- n bytes from a on as a number, little-endian. -/
def memNum (s : State) (a n : Nat) : Nat := numOf (memBytes s a n)

/-- Deviation of a sector's check value from its good value: 0 good, 0xFFFF poison, else a mismatch (R30). A sector of another
module that is not good crosses the fabric with the poison flag (R33). -/
def sectorDev (s : State) (sec : Nat) : BitVec 16 :=
  let d := Tab.get 0 s.mem.dev sec
  if d ≠ 0 ∧ 32 * sec / 2 ^ 46 % 64 ≠ s.fab.module then 0xFFFF else d

/-- The check value of a sector. -/
def checkValue (s : State) (sec : Nat) : BitVec 16 :=
  BitVec.ofNat 16 (crc16 (memBytes s (32 * sec) 32)) ^^^ sectorDev s sec

/-- Cells of consecutive bytes. -/
def cellsAt (a : Nat) (bytes : List Byte) : List (Nat × Byte) := bytes.mapIdx (fun i b => (a + i, b))

/-- The sectors that cells touch, each once. -/
def sectorsOf (cells : List (Nat × Byte)) : List Nat := (cells.map (fun c => c.1 / 32)).eraseDups

/-- The cells cover all 32 bytes of the sector. -/
def covers (cells : List (Nat × Byte)) (sec : Nat) : Bool :=
  (List.range 32).all (fun i => (cells.filter (fun c => c.1 / 32 == sec)).any (fun c => c.1 % 32 == i))

/-- Deviation after a write of cells into a sector: good when covered whole or good before, else poison (R34, R35). -/
def devAfter (cells : List (Nat × Byte)) (sec : Nat) (old : BitVec 16) : BitVec 16 :=
  if old = 0 then 0 else if covers cells sec then 0 else 0xFFFF

/-- Deviations after a write of cells. -/
def devWrite (dev : Tab (BitVec 16)) (cells : List (Nat × Byte)) : Tab (BitVec 16) :=
  (sectorsOf cells).foldl (fun d sec => Tab.put 0 d sec (devAfter cells sec (Tab.get 0 d sec))) dev

/-- Write cells to global memory with their check values (R31, R34, R35). -/
def memWrite (s : State) (cells : List (Nat × Byte)) : State :=
  { s with mem := { s.mem with cells := Tab.putAll 0 s.mem.cells cells, dev := devWrite s.mem.dev cells } }

/-- Write consecutive bytes. -/
def memWriteAt (s : State) (a : Nat) (bytes : List Byte) : State := memWrite s (cellsAt a bytes)

/-- Give a sector its poison pattern. A sector of host memory keeps none: its check value is computed anew at each ingress
(R31). -/
def poison (s : State) (sec : Nat) : State :=
  if 32 * sec / 2 ^ 44 % 4 = 1 then s
  else { s with mem := { s.mem with dev := Tab.put 0 s.mem.dev sec 0xFFFF } }

/-! ## Local memory (07 R175) -/

/-- The byte at a local offset. -/
def locByte (g : Group) (a : Nat) : Byte := Tab.get 0 g.lmem a

/-- n bytes of local memory as a number. -/
def locNum (g : Group) (a n : Nat) : Nat := numOf ((List.range n).map (fun i => locByte g (a + i)))

/-- Deviation of a local sector's check value. -/
def locDev (g : Group) (sec : Nat) : BitVec 16 := Tab.get 0 g.ldev sec

/-- Bytes of a barrier's yield list, [15:12] of its 16, are kept from plain stores (10 Table 10-4). -/
def protectedByte (g : Group) (a : Nat) : Bool := g.tbars.any (fun o => decide (o + 12 ≤ a) && decide (a < o + 16))

/-- Write cells to local memory with their check values. -/
def locPut (g : Group) (cells : List (Nat × Byte)) : Group :=
  { g with lmem := Tab.putAll 0 g.lmem cells, ldev := devWrite g.ldev cells }

/-- A stored byte as it stands in local memory: bits [31:28] of a barrier read zero (Table 10-4). -/
def barrierByte (g : Group) (c : Nat × Byte) : Nat × Byte :=
  (c.1, if g.tbars.any (fun o => c.1 == o + 3) then c.2 &&& 0x0F else c.2)

/-- A plain store to local memory: the bytes of a yield list are ignored. -/
def locStore (g : Group) (cells : List (Nat × Byte)) : Group :=
  locPut g ((cells.filter (fun c => !protectedByte g c.1)).map (barrierByte g))

/-- Give a local sector its poison pattern. -/
def locPoison (g : Group) (sec : Nat) : Group := { g with ldev := Tab.put 0 g.ldev sec 0xFFFF }

/-! ## Fabric addresses (02 R49, R50, R55) -/

/-- Fields of a physical address. -/
def paModule (a : Nat) : Nat := a / 2 ^ 46 % 64
def paRegion (a : Nat) : Nat := a / 2 ^ 44 % 4
def paOffset (a : Nat) : Nat := a % 2 ^ 44

/-- Physical address of region 0 offset o of this module. -/
def ownPa (s : State) (o : Nat) : Nat := s.fab.module * 2 ^ 46 + o

/-- The address is in region 0 of this module. -/
def ownMemory (s : State) (a : Nat) : Bool := paModule a == s.fab.module && paRegion a == 0

/-! ## Homes of addresses (03 R66; 08 R214) -/

/-- The code of block b in INTLV. -/
def intlvCode (v : Word) (b : Nat) : Nat := bits v.toNat (2 * b + 1) (2 * b)

/-- home(o): virtual memory die and byte within its 64 GiB. -/
def home (v : Word) (o : Nat) : Nat × Nat :=
  let b := bits o 39 36
  match intlvCode v b with
  | 2 => (bits o 15 12, b * 2 ^ 32 + bits o 35 16 * 2 ^ 12 + bits o 11 0)
  | 1 => (8 * (b / 8) + bits o 14 12, b % 8 * 2 ^ 33 + bits o 35 15 * 2 ^ 12 + bits o 11 0)
  | _ => (b, bits o 35 0)

/-- The region 0 offset whose home is a byte of a die. -/
def offsetOf (v : Word) (die l : Nat) : Nat :=
  match intlvCode v die with
  | 2 => l / 2 ^ 32 % 16 * 2 ^ 36 + bits l 31 12 * 2 ^ 16 + die * 2 ^ 12 + bits l 11 0
  | 1 => (8 * (die / 8) + l / 2 ^ 33 % 8) * 2 ^ 36 + bits l 32 12 * 2 ^ 15 + die % 8 * 2 ^ 12 + bits l 11 0
  | _ => die * 2 ^ 36 + bits l 35 0

/-- The home block of a region 0 offset, as die × 4,096 + block. -/
def blockAt (s : State) (o : Nat) : Nat := let h := home s.svc.intlv o; h.1 * 4096 + h.2 / 2 ^ 24

/-- The redirect entry of a home block. -/
def redirectOf (s : State) (die block : Nat) : Option (Nat × Nat) := Tab.get none s.svc.redirect (die * 4096 + block)

/-- The memory die and the byte in it that a region 0 offset reaches: its home, or its place in the block that its home block
is redirected to. -/
def storageOf (s : State) (o : Nat) : Nat × Nat :=
  let h := home s.svc.intlv o
  match redirectOf s h.1 (h.2 / 2 ^ 24) with
  | some t => (t.1, t.2 * 2 ^ 24 + h.2 % 2 ^ 24)
  | none => h

/-- The block whose data a block of storage holds: one that is redirected to it, or its own. -/
def tenant (s : State) (die block : Nat) : Nat :=
  ((s.svc.redirect.find? (fun e => e.2 == some (die, block))).map (·.1)).getD (die * 4096 + block)

/-- The address under which the model keeps a byte of this module: that of the block which its storage holds. It is another
than the access's own only for a lend block that a block was moved to, which shares its storage with that block (R214). -/
def storagePlace (s : State) (a : Nat) : Nat :=
  if s.svc.redirect.isEmpty || !ownMemory s a then a
  else
    let p := storageOf s (paOffset a)
    let t := tenant s p.1 (p.2 / 2 ^ 24)
    ownPa s (offsetOf s.svc.intlv (t / 4096) (t % 4096 * 2 ^ 24 + p.2 % 2 ^ 24))

/-! ## Links (02 R51-R53, R55) -/

/-- Links that may carry traffic to module m: in its route, enabled, and up. R52 counts the links of the mask that are up; that a link whose
FAB_LINK.enable is 0 is left out of the numbering, and that a route of such links alone counts as all down (cause 2), is the model's choice
(log 45). -/
def routeLinks (s : State) (m : Nat) : BitVec 18 :=
  Tab.get 0 s.fab.route m &&& s.fab.enable &&& s.pkg.ready.guyline

/-- The XOR fold of address bits [10:7] to [42:39] (R52). -/
def linkFold (a : Nat) : Nat := (List.range 9).foldl (fun h j => Nat.xor h (bits a (10 + 4 * j) (7 + 4 * j))) 0

/-- The link that an access to another module travels over: of the usable links of its route, in ascending order, the one
whose position is the fold modulo their number; none where no link is usable (R52). -/
def routeLink (s : State) (a : Nat) : Option Nat :=
  let ls := (List.range 18).filter (fun i => (routeLinks s (paModule a)).getLsbD i)
  ls[linkFold a % ls.length]?

/-- The lines of other modules among addresses, each with its link. -/
def sentOver (s : State) (as : List Nat) : Tab Nat :=
  (((as.filter (fun a => paModule a != s.fab.module)).map (· / 128)).eraseDups).foldl (fun t l =>
    match routeLink s (128 * l) with
    | some k => t.ins l k
    | none => t) []

/-- Every link that an operation's requests were sent over is up, so that they can be answered (R53). -/
def linksUp (s : State) (o : Op) : Bool := o.via.all (fun e => s.pkg.ready.guyline.getLsbD e.2)

/-- Requests in flight over a link that is down are sent again over one of the links that remain (R53); a changed link does
not reorder the accesses to a line, which keep the program order of their wave. -/
def resend (s : State) : State :=
  { s with ops := s.ops.map (fun o => { o with via := o.via.map (fun e =>
      if s.pkg.ready.guyline.getLsbD e.2 then e else (e.1, (routeLink s (128 * e.1)).getD e.2)) }) }

/-- The NOROUTE cause of an access to a physical address, lowest first (R50, R55). -/
def noroute (s : State) (a : Nat) : Option Nat :=
  let own := paModule a == s.fab.module
  if paRegion a = 3 ∨ (paRegion a = 0 ∧ 2 ^ 40 ≤ paOffset a) ∨ (!own ∧ (paRegion a = 1 ∨ paRegion a = 2)) then some 0
  else if own then none
  else if !s.fab.valid then some 1
  else if routeLinks s (paModule a) = 0 then some 2
  else none

/-- The lowest NOROUTE cause among addresses. -/
def lowNoroute (s : State) (ps : List Nat) : Option Nat :=
  ps.foldl (fun m a => match m, noroute s a with
    | none, c => c
    | some x, some y => some (min x y)
    | some x, none => some x) none

/-- The NOROUTE cause of an access: the lowest of its bytes; cause 3 where it is sent to another module and gets no response (02 R55). -/
def routeFault (s : State) (ps : List Nat) : Option Nat :=
  match lowNoroute s ps with
  | some c => some c
  | none => if s.fab.silent && ps.any (fun a => paModule a != s.fab.module) then some 3 else none

end Sys2Proof.Machine
end

