-- ==== Sys2Proof/Machine/Xlate.lean ====
section
/-!
DEFINITION. Address translation: the four-level walk, the per-core, Bivouac and per-die TLBs and the walker cache, and
the permission checks of each kind of access (07 R189-R196).
-/

namespace Sys2Proof.Machine

open Sys2Proof

/-- What an access needs of its page (R192). -/
inductive Need where
  | read | write | both | fetch
deriving DecidableEq, Repr

/-- A translation fault: cause of Table 7-5 and tree level, and the address whose walk ended in it. -/
structure XFault where
  cause : Nat
  level : Nat
  walked : Option Nat := none
deriving DecidableEq, Repr

/-- TRAP_DETAIL of a translation fault: cause in bits [3:0], level in [6:4] for causes 1, 2 and 7 (R196). -/
def XFault.detail (f : XFault) : Nat :=
  f.cause + (if f.cause = 1 ∨ f.cause = 2 ∨ f.cause = 7 then 16 * f.level else 0)

/-! ## The walk (R190, R191) -/

/-- Index of va at a level. -/
def levelIndex (va level : Nat) : Nat := bits va (12 + 9 * (level - 1) + 8) (12 + 9 * (level - 1))

/-- A leaf entry is well formed at its level (Table 7-4). -/
def leafOk (e level : Nat) : Bool :=
  let i := bits e 63 60
  (level == 1 && decide (i ≤ 9) || level == 2 && decide (9 ≤ i)) &&
    bits e 57 52 == 0 && bits e 11 7 == 0 && !bit e 2 && bits e 51 12 % 2 ^ i == 0

/-- A pointer entry is well formed at its level (Table 7-4). -/
def pointerOk (e level : Nat) : Bool :=
  decide (2 ≤ level) && bits e 63 40 == 0 && bits e 11 2 == 0

/-- The translation a leaf gives. -/
def leafEntry (ctx va e : Nat) : TlbEntry :=
  let size := bits e 63 60
  { ctx := ctx, va := alignDown va (4096 * 2 ^ size), size := size, pa := bits e 51 12 * 4096, cls := bits e 59 58,
    unc := bit e 6, x := bit e 5, w := bit e 4, rd := bit e 3 }

/-- The walk from a node at a level down: the leaf and the pointers read, or a fault. -/
def walkFrom (s : State) (ctx va : Nat) : Nat → Nat → List WalkEntry → Except XFault (TlbEntry × List WalkEntry)
  | 0, _, _ => .error { cause := 2, level := 1 }
  | level + 1, node, ptrs =>
    let a := storagePlace s (ownPa s (node + 8 * levelIndex va (level + 1)))
    let e := memNum s a 8
    if sectorDev s (a / 32) ≠ 0 then .error { cause := 7, level := level + 1 }
    else if !bit e 0 then .error { cause := 1, level := level + 1 }
    else if bit e 1 then
      if leafOk e (level + 1) then .ok (leafEntry ctx va e, ptrs) else .error { cause := 2, level := level + 1 }
    else if pointerOk e (level + 1) then
      walkFrom s ctx va level (bits e 39 12 * 4096)
        ({ ctx := ctx, level := level + 1, va := va / 2 ^ (12 + 9 * level), node := bits e 39 12 * 4096 } :: ptrs)
    else .error { cause := 2, level := level + 1 }

/-- The top-level node of va: 256 nodes at consecutive frames from ptroot. -/
def topNode (s : State) (ctx va : Nat) : Nat := alignDown (ctxGet s ctx).ptroot (2 ^ 20) + 4096 * bits va 55 48

/-- The cached pointer of a level for va. -/
def cachedNode (ws : List WalkEntry) (ctx va level : Nat) : Option Nat :=
  (ws.find? (fun w => w.ctx == ctx && w.level == level && w.va == va / 2 ^ (12 + 9 * (level - 1)))).map (·.node)

/-- Where a walk of va begins: below the deepest pointer that the walker cache holds (R193). -/
def walkStart (s : State) (die ctx va : Nat) : Nat × Nat :=
  let ws := Tab.get [] s.xlt.walker die
  match cachedNode ws ctx va 2 with
  | some n => (1, n)
  | none =>
    match cachedNode ws ctx va 3 with
    | some n => (2, n)
    | none =>
      match cachedNode ws ctx va 4 with
      | some n => (3, n)
      | none => (4, topNode s ctx va)

/-- The walk of va. -/
def walk (s : State) (die ctx va : Nat) : Except XFault (TlbEntry × List WalkEntry) :=
  let p := walkStart s die ctx va
  walkFrom s ctx va p.1 p.2 []

/-- The node entries that a walk from a node at a level reads. -/
def nodeReads (s : State) (va : Nat) : Nat → Nat → List Nat
  | 0, _ => []
  | level + 1, node =>
    let a := storagePlace s (ownPa s (node + 8 * levelIndex va (level + 1)))
    let e := memNum s a 8
    a :: (if sectorDev s (a / 32) = 0 ∧ bit e 0 ∧ !bit e 1 ∧ pointerOk e (level + 1) then nodeReads s va level (bits e 39 12 * 4096) else [])

/-! ## TLBs (R193) -/

/-- The entry of a context covers va. -/
def TlbEntry.covers (e : TlbEntry) (ctx va : Nat) : Bool :=
  e.ctx == ctx && decide (e.va ≤ va) && decide (va < e.va + 4096 * 2 ^ e.size)

/-- Physical address of va under an entry, as memory keeps it (08 R214). -/
def TlbEntry.phys (s : State) (e : TlbEntry) (va : Nat) : Nat := storagePlace s (e.pa + (va - e.va))

/-- Put an entry at the front of a list of at most n entries (least recent use). -/
def lruPut {α : Type} [DecidableEq α] (n : Nat) (x : α) (l : List α) : List α := (x :: l.erase x).take n

/-- The set of the per-die TLB that an entry lies in. -/
def dieSet (e : TlbEntry) : Nat × Nat := (e.size, bits e.va (e.size + 21) (e.size + 12))

/-- Put an entry into a per-die TLB: 8 ways in the set its virtual address gives. -/
def diePut (e : TlbEntry) (l : List TlbEntry) : List TlbEntry :=
  let same := (e :: (l.erase e)).filter (fun x => (dieSet x).2 == (dieSet e).2)
  let rest := l.filter (fun x => (dieSet x).2 != (dieSet e).2)
  same.take 8 ++ rest

/-- The wave's core, as die × 32 + core. -/
def coreKey (s : State) : Nat := s.g.die * 32 + s.g.core

/-- The thread of the ejected lane that is executing. -/
def laneThread (s : State) : Nat :=
  match s.lane with
  | none => 0
  | some l => ((s.w.ejected.find? (fun e => e.lane == l)).map (·.thread)).getD 0

/-- The TLB the executing agent uses: its core's, or its Bivouac core's. -/
def agentTlb (s : State) : List TlbEntry :=
  if s.lane.isSome then Tab.get [] s.xlt.biv (s.g.die * 16 + laneThread s / 4) else Tab.get [] s.xlt.core (coreKey s)

/-- A translation by the TLBs, or by a walk. -/
def lookup (s : State) (die ctx va : Nat) (tlb : List TlbEntry) : Except XFault TlbEntry :=
  match tlb.find? (fun e => e.covers ctx va) with
  | some e => .ok e
  | none =>
    match (Tab.get [] s.xlt.die die).find? (fun e => e.covers ctx va) with
    | some e => .ok e
    | none => match walk s die ctx va with
      | .ok p => .ok p.1
      | .error f => .error { f with walked := some va }

/-- Permission of a page for an access, lowest cause first (R192, R196). -/
def permit (need : Need) (e : TlbEntry) : Except XFault TlbEntry :=
  match need with
  | .read => if e.rd then .ok e else .error { cause := 3, level := 0 }
  | .write => if e.w then .ok e else .error { cause := 4, level := 0 }
  | .both =>
    if !e.rd then .error { cause := 3, level := 0 } else if e.w then .ok e else .error { cause := 4, level := 0 }
  | .fetch => if e.x then .ok e else .error { cause := 5, level := 0 }

/-- Translate one 64-bit global address (R174, R190, R192). -/
def xlateIn (s : State) (die ctx : Nat) (tlb : List TlbEntry) (need : Need) (a : Nat) : Except XFault TlbEntry :=
  if 2 ^ 56 ≤ a then .error { cause := 0, level := 0 } else lookup s die ctx a tlb >>= permit need

/-- Translate for the executing agent. -/
def xlate (s : State) (need : Need) (a : Nat) : Except XFault TlbEntry :=
  xlateIn s s.g.die s.g.ctx (agentTlb s) need a

/-- Bytes from va to the end of its page. -/
def TlbEntry.room (e : TlbEntry) (va : Nat) : Nat := e.va + 4096 * 2 ^ e.size - va

/-- The lower cause of two faults. -/
def XFault.lower (f g : XFault) : XFault := if g.cause < f.cause then g else f

/-- Physical addresses of n bytes from a on, at most two pages; addresses wrap modulo 2^64. -/
def physBytes (s : State) (xl : Nat → Except XFault TlbEntry) (a n : Nat) : Except XFault (List Nat) :=
  match xl a with
  | .error f =>
    match xl ((a + (n - 1)) % 2 ^ 64) with
    | .error g => .error (f.lower g)
    | .ok _ => .error f
  | .ok e =>
    let k := min n (e.room a)
    let first := (List.range k).map (fun i => e.phys s (a + i))
    if n ≤ k then .ok first
    else
      match xl ((a + k) % 2 ^ 64) with
      | .error g => .error g
      | .ok e2 => .ok (first ++ (List.range (n - k)).map (fun i => e2.phys s ((a + k) % 2 ^ 64 + i)))

end Sys2Proof.Machine
end

