-- ==== Sys2Proof/Machine/Focus.lean ====
section
/-!
DEFINITION. Finding waves and groups: the wave in focus is State.w and its group State.g; the other waves of that group
are its peers, and the other groups stand in State.groups by rising handle (log 1).
-/

namespace Sys2Proof.Machine

open Sys2Proof

/-! ## Wave handles (04 R95, Table 4-9) -/

/-- The handle of wave idx of a group. -/
def handleOf (g : Group) (idx : Nat) : BitVec 64 :=
  BitVec.ofNat 64 (g.ctx % 32 * 2 ^ 59 + g.queue % 4096 * 2 ^ 47 + g.packet % 2048 * 2 ^ 36 + idx % 16 * 2 ^ 32 +
    g.linear % 2 ^ 32)

/-- The handle of a group: that of its wave 0. -/
def groupHandle (g : Group) : BitVec 64 := handleOf g 0

/-- The handle of the group that a wave handle names. -/
def groupOf (h : BitVec 64) : BitVec 64 := h &&& ~~~(BitVec.ofNat 64 (15 * 2 ^ 32))

/-- Context of a handle. -/
def handleCtx (h : BitVec 64) : Nat := bits h.toNat 63 59

/-! ## Changing focus -/

/-- The focus holds a wave. -/
def focused (s : State) : Bool := s.w.status != .idle

/-- Insert a wave among peers by rising index. -/
def insWave (w : Wave) : List Wave → List Wave
  | [] => [w]
  | p :: ps => if w.idx < p.idx then w :: p :: ps else p :: insWave w ps

/-- Insert a group by rising handle. -/
def insGroup (g : Group) : List Group → List Group
  | [] => [g]
  | p :: ps => if (groupHandle g).toNat < (groupHandle p).toNat then g :: p :: ps else p :: insGroup g ps

/-- The group in focus with all its waves as peers. -/
def wholeGroup (s : State) : Group := { s.g with peers := insWave s.w s.g.peers }

/-- Put the focus back among the groups. -/
def park (s : State) : State :=
  if focused s then { s with w := {}, g := {}, groups := insGroup (wholeGroup s) s.groups }
  else { s with w := {}, g := {} }

/-- Split off the first element with a property. -/
def pick {α : Type} (p : α → Bool) : List α → Option (α × List α)
  | [] => none
  | x :: xs => if p x then some (x, xs) else (pick p xs).map (fun r => (r.1, x :: r.2))

/-- Bring a wave into a focus that is empty. -/
def unpark (h : BitVec 64) (s : State) : Option State :=
  match pick (fun g => g.peers.any (fun w => w.handle == h)) s.groups with
  | none => none
  | some (g, rest) =>
    match pick (fun w => w.handle == h) g.peers with
    | none => none
    | some (w, ps) => some { s with w := w, g := { g with peers := ps }, groups := rest }

/-- Move the focus to a wave. -/
def focusOn (h : BitVec 64) (s : State) : State :=
  if focused s && s.w.handle == h then s else (unpark h (park s)).getD s

/-- Run f with a wave in focus and come back; a wave that is not resident is left alone. -/
def withWave (h : BitVec 64) (f : State → State) (s : State) : State :=
  if focused s && s.w.handle == h then f s
  else
    match unpark h (park s) with
    | none => s
    | some s1 => if focused s then (unpark s.w.handle (park (f s1))).getD (park (f s1)) else park (f s1)

/-- Whether a wave is resident. -/
def resident (s : State) (h : BitVec 64) : Bool :=
  (focused s && s.w.handle == h) || s.g.peers.any (fun w => w.handle == h) ||
    s.groups.any (fun g => g.peers.any (fun w => w.handle == h))

/-- Every resident group with its waves as peers. -/
def allGroups (s : State) : List Group := if focused s then wholeGroup s :: s.groups else s.groups

/-- Every resident wave. -/
def allWaves (s : State) : List Wave := (allGroups s).flatMap (·.peers)

/-- A resident wave. -/
def findWave (s : State) (h : BitVec 64) : Option Wave := (allWaves s).find? (fun w => w.handle == h)

/-- A resident group by the handle of its wave 0, with its waves as peers. -/
def findGroup (s : State) (h : BitVec 64) : Option Group := (allGroups s).find? (fun g => groupHandle g == h)

/-- Map over every wave, resident, or saved in the record of a group that is not resident. -/
def mapWaves (f : Wave → Wave) (s : State) : State :=
  let onGroup (g : Group) : Group := { g with peers := g.peers.map f }
  { s with
    w := if focused s then f s.w else s.w
    g := onGroup s.g
    groups := s.groups.map onGroup
    records := s.records.map (fun r => if resident s r.handle then r else { r with saved := r.saved.map onGroup }) }

/-- Change the group with a handle, resident in focus or not. -/
def mapGroup (h : BitVec 64) (f : Group → Group) (s : State) : State :=
  if focused s && groupHandle s.g == h then { s with g := f s.g }
  else { s with groups := s.groups.map (fun g => if groupHandle g == h then f g else g) }

end Sys2Proof.Machine
end

