-- ==== Sys2Proof/Machine/Coherence.lean ====
section
/-!
DEFINITION. Coherence: the slice directory of each compute die, the home directory, and the events of both (08 R200-R212,
R219). The value of a byte is always the newest one in State.mem; where a line is dirty in a cache, Mem.stale keeps what
its DRAM still holds (log 12).
-/

namespace Sys2Proof.Machine

open Sys2Proof

/-! ## Lines -/

/-- A line of 128 bytes by its number. -/
def lineOf (a : Nat) : Nat := a / 128

/-- The lines of addresses, each once. -/
def linesOf (as : List Nat) : List Nat := (as.map lineOf).eraseDups

/-- The line is homed in this module. -/
def ownLine (s : State) (l : Nat) : Bool := paModule (128 * l) == s.fab.module

/-- Lines that caches hold: region 0. -/
def cacheable (l : Nat) : Bool := paRegion (128 * l) == 0

/-! ## L1 and L2 entries -/

/-- The L1 state of a core for a line; none is I. -/
def l1Get (s : State) (die core l : Nat) : Option L1State :=
  (s.coh.l1.find? (fun x => x.die == die && x.core == core && x.line == l)).map (·.st)

/-- The valid sectors of a core's copy of a line. -/
def l1Valid (s : State) (die core l : Nat) : BitVec 4 :=
  ((s.coh.l1.find? (fun x => x.die == die && x.core == core && x.line == l)).map (·.valid)).getD 0

/-- Set or drop the L1 state of a core for a line, which is then the one used latest. -/
def l1Put (die core l : Nat) (st : Option L1State) (s : State) : State :=
  let rest := s.coh.l1.filter (fun x => !(x.die == die && x.core == core && x.line == l))
  { s with coh := { s.coh with l1 := match st with
      | none => rest
      | some x => { die := die, core := core, line := l, st := x, valid := l1Valid s die core l } :: rest } }

/-- The L1 of a core holds these sectors of a line that it has (07 R177). -/
def l1Sectors (die core l : Nat) (m : BitVec 4) (s : State) : State :=
  { s with coh := { s.coh with l1 := s.coh.l1.map (fun x =>
      if x.die = die ∧ x.core = core ∧ x.line = l then { x with valid := x.valid ||| m } else x) } }

/-- The L1 that a core's access to a line goes through: in a fused cluster the quarter of bits [8:7] (07 R178). -/
def l1Core (g : Group) (l : Nat) : Nat := if bit g.desc.gflags 0 then g.core / 4 * 4 + l % 4 else g.core

/-- An L2 line that holds nothing. -/
def emptyL2 (die l : Nat) : L2Line :=
  { die := die, line := l, dstate := .i, coarse := false, owner := none, vector := 0, ptrs := [], cls := 0, pins := 0,
    txn := none, fwd := none, queue := [] }

/-- The L2 line of a die. -/
def l2Get (s : State) (die l : Nat) : L2Line :=
  (s.coh.l2.find? (fun x => x.die == die && x.line == l)).getD (emptyL2 die l)

/-- The L2 line is more than a line in I: it is held, pinned, or has a request in progress or waiting. -/
def l2Kept (x : L2Line) : Bool := x.dstate != .i || x.txn.isSome || x.fwd.isSome || x.pins != 0 || !x.queue.isEmpty

/-- Set the L2 line of a die; a line in I leaves the list. -/
def l2Put (x : L2Line) (s : State) : State :=
  let rest := s.coh.l2.filter (fun y => !(y.die == x.die && y.line == x.line))
  { s with coh := { s.coh with l2 := if l2Kept x then x :: rest else rest } }

/-- Change the L2 line of a die. -/
def l2Mod (die l : Nat) (f : L2Line → L2Line) (s : State) : State := l2Put (f (l2Get s die l)) s

/-- Drop every L1 copy of a line on a die. -/
def dropL1s (die l : Nat) (s : State) : State :=
  { s with coh := { s.coh with l1 := s.coh.l1.filter (fun x => !(x.die == die && x.line == l)) } }

/-- Drop the L1 copies of a line on a die but that of the writer. -/
def dropL1sBut (die : Nat) (core : Option Nat) (l : Nat) (s : State) : State :=
  { s with coh := { s.coh with l1 := s.coh.l1.filter (fun x => !(x.die == die && x.line == l && some x.core != core)) } }

/-- The requests that wait for a line once its owner is gone: a forwarded read waits again, before the others. -/
def waitAgain (x : L2Line) : List (Nat × Bool) :=
  match x.fwd with
  | some c => (c, false) :: x.queue
  | none => x.queue

/-- Drop a line from a die: its L1 copies and its L2 line. A pin keeps its place until its release (07 R184), and a forwarded
read waits again. -/
def dropDie (die l : Nat) (s : State) : State :=
  let t := dropL1s die l s
  let drop (x : L2Line) : L2Line :=
    { x with dstate := .i, coarse := false, owner := none, vector := 0, ptrs := [], fwd := none, queue := waitAgain x }
  { t with coh := { t.coh with l2 := (t.coh.l2.map (fun x => if x.die = die ∧ x.line = l then drop x else x)).filter l2Kept } }

/-- A die holds the line dirty: its L2, or an L1 that wrote it in E without a message (R202). -/
def dirtyOn (s : State) (die l : Nat) : Bool :=
  let x := l2Get s die l
  x.dstate == .m || x.dstate == .o ||
    s.coh.l1.any (fun y => y.die == die && y.line == l && (y.st == .m || y.st == .o))

/-! ## What is in the way of a request (R205-R207; 07 R184) -/

/-- A request engine owns the line. -/
def engineOwns (x : L2Line) : Bool := x.owner.any (fun o => decide (32 ≤ o))

/-- A transaction, a forward or a waiting request is in progress on the line in a slice, or an engine owns it there. -/
def lineBusy (x : L2Line) : Bool := x.txn.isSome || x.fwd.isSome || !x.queue.isEmpty || engineOwns x

/-! ## The home (R208, R209) -/

/-- The home entry of a line; unlisted is I. -/
def homeGet (s : State) (l : Nat) : HomeEntry :=
  (s.coh.home.find? (fun e => e.line == l)).getD
    { line := l, hstate := .i, owner := none, sharers := 0, mods := [], overflow := false, dirty := false }

/-- Set the home entry of a line. -/
def homePut (e : HomeEntry) (s : State) : State :=
  let rest := s.coh.home.filter (fun x => x.line != e.line)
  { s with coh := { s.coh with home := if e.hstate = .i then rest else e :: rest } }

/-- An agent at the home: 0-31 a compute die, 64 + m the proxy of module m. -/
def isDie (a : Nat) : Bool := decide (a < 64)

/-- No agent. -/
abbrev nobody : Nat := 128

/-- Another module's proxy, not the agent, holds a line of this module in X: its data has to come back before any request is served
(R209, R210). -/
def proxyOwned (s : State) (agent l : Nat) : Bool :=
  ownLine s l && (homeGet s l).hstate == .x && (homeGet s l).owner.any (fun o => !isDie o && o != agent)

/-- Nothing is in the way of an agent's read of the line. -/
def readFreeFor (s : State) (agent l : Nat) : Bool := s.coh.l2.all (fun x => x.line != l || !lineBusy x) && !proxyOwned s agent l

/-- Nothing is in the way of a read of the line. -/
def readFree (s : State) (l : Nat) : Bool := readFreeFor s nobody l

/-- Nothing is in the way of an agent's taking the line from every die but itself: no pin either. -/
def takeFree (s : State) (agent l : Nat) : Bool :=
  s.coh.l2.all (fun x => x.line != l || x.die == agent || !(lineBusy x || x.pins != 0)) && !proxyOwned s agent l

/-- No agent but a holds the line in S. -/
def soleHolder (e : HomeEntry) (a : Nat) : Bool :=
  (if isDie a then e.sharers &&& ~~~(BitVec.twoPow 32 a) else e.sharers) == 0 &&
    e.mods.all (fun m => 64 + m == a) && !e.overflow

/-- Record a sharer: a die in the vector, a module among four, beyond which the entry overflows (Table 8-4). -/
def addSharer (e : HomeEntry) (a : Nat) : HomeEntry :=
  if isDie a then { e with sharers := e.sharers ||| BitVec.twoPow 32 a }
  else if e.mods.contains (a - 64) || e.overflow then e
  else if e.mods.length < 4 then { e with mods := e.mods ++ [a - 64] }
  else { e with mods := [], overflow := true }

/-- Remove a sharer; of an overflowed list nothing is removed. -/
def dropSharer (e : HomeEntry) (a : Nat) : HomeEntry :=
  if isDie a then { e with sharers := e.sharers &&& ~~~(BitVec.twoPow 32 a) } else { e with mods := e.mods.erase (a - 64) }

/-- Some agent holds the line in S. -/
def anySharer (e : HomeEntry) : Bool := e.sharers != 0 || !e.mods.isEmpty || e.overflow

/-- DRAM takes the newest data of a line. -/
def writeDram (l : Nat) (s : State) : State := { s with mem := { s.mem with stale := Tab.put [] s.mem.stale l [] } }

/-- The line becomes dirty in a cache: DRAM keeps the bytes it has. -/
def keepDram (l : Nat) (s : State) : State :=
  if (Tab.get [] s.mem.stale l).isEmpty then
    { s with mem := { s.mem with stale := Tab.put [] s.mem.stale l (memBytes s (128 * l) 128) } }
  else s

/-- Wake the monitors of a line (R212). -/
def wakeMonitors (l : Nat) (s : State) : State :=
  { s with coh := { s.coh with monitors := s.coh.monitors.map (fun m => if m.line = l then { m with woken := true } else m) } }

/-- Record a reader in the directory (R204). -/
def addPointer (x : L2Line) (core : Nat) : L2Line :=
  if x.coarse then { x with vector := x.vector ||| BitVec.twoPow 8 (core / 4) }
  else if x.ptrs.contains core then x
  else if x.ptrs.length < 4 then { x with ptrs := x.ptrs ++ [core] }
  else { x with coarse := true, ptrs := [],
                vector := (core :: x.ptrs).foldl (fun v c => v ||| BitVec.twoPow 8 (c / 4)) x.vector }

/-- The owning L1 of a line becomes a sharer. -/
def ownerToPointer (x : L2Line) : L2Line :=
  match x.owner with
  | some c => if c < 32 then addPointer { x with owner := none } c else x
  | none => x

/-- Change the L1 states of a line on a die. -/
def l1States (die l : Nat) (f : L1State → L1State) (s : State) : State :=
  { s with coh := { s.coh with l1 := s.coh.l1.map (fun x => if x.die = die ∧ x.line = l then { x with st := f x.st } else x) } }

/-- The L1 that owns a line supplies a reader that keeps no L1 copy: from M it moves to O and stays the owner, from E to S, and the
slice records it as a pointer (R205). -/
def ownerAnswers (die l : Nat) (s : State) : State :=
  match (l2Get s die l).owner with
  | none => s
  | some o =>
    if 32 ≤ o then s
    else if l1Get s die o l = some .e then l1States die l (fun st => if st = .e then .s else st) (l2Mod die l ownerToPointer s)
    else l1States die l (fun st => if st = .m then .o else st) s

/-- A die answers a forwarded read: with the line dirty it moves to O, else to S, and its L1 owner answers as to any reader
(R202, R209). -/
def demoteDie (die l : Nat) (s : State) : State :=
  ownerAnswers die l (l2Mod die l (fun x => { x with dstate := if dirtyOn s die l then .o else .s }) s)

/-- Read at the home from agent a (Table 8-5). A line that another module's proxy holds in X is not served before the proxy has
written it back (R210). -/
def homeReadBy (a l : Nat) (s : State) : State :=
  let e := homeGet s l
  match e.hstate, e.owner with
  | .x, some o =>
    if o = a ∨ !isDie o then s
    else if dirtyOn s o l then homePut (addSharer { e with hstate := .o } a) (demoteDie o l s)
    else homePut (addSharer (addSharer { e with hstate := .s, owner := none } o) a) (demoteDie o l s)
  | .o, _ => homePut (addSharer e a) s
  | _, _ =>
    if soleHolder e a then homePut { (dropSharer e a) with hstate := .x, owner := some a } s
    else homePut (addSharer { e with hstate := .s } a) s

/-- A read at the home by a unit that keeps no copy, a dispatch unit: an owner in X answers as to any read (R209, R212). -/
def homeLook (l : Nat) (s : State) : State :=
  let e := homeGet s l
  match e.hstate, e.owner with
  | .x, some o =>
    if !isDie o then s
    else if dirtyOn s o l then homePut { e with hstate := .o } (demoteDie o l s)
    else homePut (addSharer { e with hstate := .s, owner := none } o) (demoteDie o l s)
  | _, _ => s

/-- Every die but a drops a line, and every other module's copy is invalidated. -/
def invalidateOthers (a l : Nat) (s : State) : State :=
  (List.range 32).foldl (fun t d => if d = a then t else dropDie d l t) s

/-- Ownership or upgrade at the home from agent a (Table 8-5); every holder is invalidated and monitors are woken. -/
def homeOwnBy (a l : Nat) (s : State) : State :=
  homePut { line := l, hstate := .x, owner := some a, sharers := 0, mods := [], overflow := false, dirty := true }
    (wakeMonitors l (invalidateOthers a l s))

/-- Clean eviction at the home (Table 8-5). -/
def homeCleanBy (a l : Nat) (s : State) : State :=
  let e := homeGet s l
  match e.hstate with
  | .i => s
  | .s => let f := dropSharer e a; homePut { f with hstate := if anySharer f then .s else .i } s
  | .x => if e.owner = some a then homePut { e with owner := none, hstate := if anySharer e then .s else .i } s else s
  | .o => homePut (dropSharer e a) s

/-- Writeback at the home (Table 8-5). -/
def homeWritebackBy (a l : Nat) (s : State) : State :=
  let e := homeGet s l
  if e.owner = some a then
    homePut { e with owner := none, hstate := if e.hstate = .o ∧ anySharer e then .s else .i } (wakeMonitors l (writeDram l s))
  else s

/-! ## The proxy of this module (R210) -/

/-- A foreign line as the proxy holds it. -/
def proxyGet (s : State) (l : Nat) : ProxyLine := Tab.get {} s.coh.proxy l

/-- Set what the proxy holds of a foreign line; with no die left it holds nothing. -/
def proxyPut (l : Nat) (p : ProxyLine) (s : State) : State :=
  { s with coh := { s.coh with proxy := Tab.put {} s.coh.proxy l (if p.dies = 0 then {} else p) } }

/-- The proxy moves a line from X to S: the die that held it dirty writes it back and keeps it in S. -/
def proxyDemote (l : Nat) (s : State) : State :=
  let p := proxyGet s l
  if p.x then
    let t := ((List.range 32).filter (fun d => p.dies.getLsbD d)).foldl (fun t d =>
      l1States d l (fun _ => .s) (l2Mod d l (fun x => { (ownerToPointer x) with dstate := .s }) t)) s
    proxyPut l { p with x := false } (writeDram l t)
  else s

/-- A die reads a foreign line. -/
def proxyRead (die l : Nat) (s : State) : State :=
  let t := if (proxyGet s l).x && !(proxyGet s l).dies.getLsbD die then proxyDemote l s else s
  proxyPut l { proxyGet t l with dies := (proxyGet t l).dies ||| BitVec.twoPow 32 die } t

/-- A die takes a foreign line: every other die of the module loses it, the proxy holds it in X, and the line's home wakes who monitors
it (R210, R212). -/
def proxyOwn (die l : Nat) (s : State) : State :=
  proxyPut l { dies := BitVec.twoPow 32 die, x := true } (wakeMonitors l (invalidateOthers die l s))

/-- A die gives a foreign line back, with its data where it was dirty; its home then wakes who monitors it (R212). -/
def proxyLeave (dirty : Bool) (die l : Nat) (s : State) : State :=
  let p := proxyGet s l
  proxyPut l { dies := p.dies &&& ~~~(BitVec.twoPow 32 die), x := p.x && !p.dies.getLsbD die }
    (if dirty then wakeMonitors l (writeDram l s) else s)

/-- A read, an ownership request, a clean eviction and a writeback of a compute die, at the home or through the proxy. -/
def homeRead (die l : Nat) (s : State) : State := if ownLine s l then homeReadBy die l s else proxyRead die l s
def homeOwn (die l : Nat) (s : State) : State := if ownLine s l then homeOwnBy die l s else proxyOwn die l s
def homeClean (die l : Nat) (s : State) : State := if ownLine s l then homeCleanBy die l s else proxyLeave false die l s
def homeWriteback (die l : Nat) (s : State) : State := if ownLine s l then homeWritebackBy die l s else proxyLeave true die l s

/-- The state a die has towards the home after a read. A read of another module's line gives S: whether the home would let the proxy
have X where no other agent holds the line is not said here, the model's choice (log 45). -/
def grantState (s : State) (d l : Nat) : DState :=
  let e := homeGet s l
  if ownLine s l && e.hstate == .x && e.owner == some d then .e else .s

/-! ## Homes and dies (03 R64, R66; 08 R214) -/

/-- The memory die whose DRAM holds a line of this module, its block redirected where it has moved. -/
def lineDie (s : State) (l : Nat) : Nat := (storageOf s (paOffset (128 * l))).1

/-- Compute dies of a span code. -/
def spanDies (span : Nat) : Nat :=
  match span with
  | 0 => 1
  | 1 => 16
  | _ => 32

/-- The virtual compute dies of a context. -/
def ctxDies (c : Ctx) : List Nat := (List.range (spanDies c.span)).map (c.first + ·)

/-- The quotas of the context that a compute die serves; without one, 16 ways for every class (07 R187). -/
def dieQuota (s : State) (die : Nat) : BitVec 64 :=
  ((s.ctxs.find? (fun e => e.2.state != 0 && (ctxDies e.2).contains die)).map (fun e => e.2.quota)).getD 0x0008421000084210

/-- A quota field: values above 16 mean 16. -/
def quotaField (q : BitVec 64) (base c : Nat) : Nat := min 16 (bits q.toNat (base + 5 * c + 4) (base + 5 * c))

/-! ## Replacement (07 R177, R182, R187, R188) -/

/-- slice(a) of 07 R182. -/
def sliceOf (a : Nat) : Nat := (List.range 10).foldl (fun h j => Nat.xor h (bits a (10 + 4 * j) (7 + 4 * j))) 0

/-- A line's slice and its set in it (07 R182). -/
def setOf (l : Nat) : Nat × Nat := (sliceOf (128 * l), bits (128 * l) 21 11)

/-- victim(set, c) of 07 R188 over the valid lines of a full set, the one used latest first. -/
def victim {α : Type} (quota : Nat → Nat) (cls : α → Nat) (pinned : α → Bool) (set : List α) (c : Nat) : Option α :=
  let count (k : Nat) : Nat := set.countP (fun x => cls x == k)
  let cand := set.filter (fun x => !pinned x)
  let own := cand.filter (fun x => cls x == c)
  let above := cand.filter (fun x => decide (quota (cls x) < count (cls x)))
  if quota c ≤ count c ∧ own ≠ [] then own.getLast?
  else if above ≠ [] then above.getLast?
  else cand.getLast?

/-- Sets of the 1 GiB memory-side cache of a memory die: 16 ways of 128 bytes (R185). -/
def mcacheSets : Nat := 2 ^ 30 / (16 * 128)

/-- The lines of the memory-side caches after a line has passed through that of its home: it is used there, or filled under the quota of
its class; a quota of 0 leaves it out (R185, R187). -/
def mcacheAfter (q : BitVec 64) (cls l : Nat) (write : Bool) (s : State) : List MCacheLine :=
  let die := lineDie s l
  let rest := s.coh.mcache.filter (fun x => !(x.die == die && x.line == l))
  let fill (x : MCacheLine) (xs : List MCacheLine) : List MCacheLine := { x with dirty := x.dirty || write } :: xs
  match s.coh.mcache.find? (fun x => x.die == die && x.line == l) with
  | some x => fill x rest
  | none =>
    let x : MCacheLine := { die := die, line := l, cls := cls, dirty := false }
    let setNo (y : Nat) : Nat := Config.mcacheSet y % mcacheSets
    let set := rest.filter (fun y => y.die == die && setNo y.line == setNo l)
    if quotaField q 32 cls = 0 then s.coh.mcache
    else if set.length < 16 then fill x rest
    else match victim (quotaField q 32) (·.cls) (fun _ => false) set cls with
      | some y => fill x (rest.erase y)
      | none => s.coh.mcache

/-- A line passes through the memory-side cache of its home. -/
def mcacheUse (q : BitVec 64) (cls l : Nat) (write : Bool) (s : State) : State :=
  if !ownLine s l || !cacheable l then s
  else { s with coh := { s.coh with mcache := mcacheAfter q cls l write s } }

/-- The set of an L1 that a line falls in: bits [13:7], or of a fused cluster's quarter bits [15:9] (07 R177, R178). -/
def l1Set (s : State) (die core l : Nat) : Nat :=
  if s.coh.fused.getLsbD (die * 8 + core / 4) then l / 4 % 128 else l % 128

/-! ## The slice (R203-R205) -/

/-- Cores and engines other than the requester that the directory names (R205). -/
def holders (x : L2Line) (agent : Nat) : List Nat :=
  let cores := if x.coarse then (List.range 32).filter (fun c => x.vector.getLsbD (c / 4)) else x.ptrs
  ((cores ++ (match x.owner with
    | some o => [o]
    | none => [])).eraseDups).filter (· != agent)

/-- A granted owner: the entry is back in pointer mode with that owner. -/
def ownedBy (x : L2Line) (owner : Option Nat) : L2Line :=
  { x with dstate := .m, coarse := false, vector := 0, ptrs := [], owner := owner, txn := none, fwd := none }

/-- The slice serves a read of a core that holds the line in no state, no engine owning it (R205). -/
def sliceServe (die core l : Nat) (s : State) : State :=
  let x := l2Get s die l
  match x.owner with
  | some o =>
    match l1Get s die o l with
    | some .e => l1Put die core l (some .s) (l1Put die o l (some .s)
        (l2Put (addPointer (addPointer { x with owner := none } o) core) s))
    | _ => l1Put die core l (some .s) (l1Put die o l (some .o) (l2Put (addPointer x core) s))
  | none =>
    if (holders x core).isEmpty && (x.dstate == .e || x.dstate == .m) then
      l1Put die core l (some .e) (l2Put { x with owner := some core, ptrs := [] } s)
    else l1Put die core l (some .s) (l2Put (addPointer x core) s)

/-- A clean copy leaves an L1 with its notice (R204, R206); during a transaction the entry does not change. -/
def l1Notice (die core line : Nat) (s : State) : State :=
  l2Mod die line (fun x =>
    if x.txn.isSome then x
    else { x with ptrs := x.ptrs.erase core, owner := if x.owner = some core then none else x.owner })
    (l1Put die core line none s)

/-- The slice has taken dirty data from an L1: what the die held in E it holds in M (R206). -/
def takeData (x : L2Line) : L2Line := if x.dstate = .e then { x with dstate := .m } else x

/-- The line of a full set of an L1 that leaves for one it does not hold: that used longest ago (07 R177). -/
def l1Victim (s : State) (die core l : Nat) : Option L1Line :=
  let set := s.coh.l1.filter (fun x => x.die == die && x.core == core && l1Set s die core x.line == l1Set s die core l)
  if set.length < 16 ∨ set.any (fun x => x.line == l) then none else set.getLast?

/-- A dirty copy leaves an L1 with its data; crossing a forward or a recall it is the owner's response, and the reader's L1 makes room
for the line in its turn (R206, Table 8-3). Each turn ends a forward, so their number bounds the turns. -/
def l1ReturnIn : Nat → Nat → Nat → Nat → State → State
  | 0, die, core, line, s =>
    l2Mod die line (fun x => { (takeData x) with owner := if x.owner = some core then none else x.owner, fwd := none, queue := waitAgain x })
      (l1Put die core line none s)
  | n + 1, die, core, line, s =>
    let t := l2Mod die line (fun x => { (takeData x) with owner := if x.owner = some core then none else x.owner, fwd := none })
      (l1Put die core line none s)
    match (l2Get s die line).fwd with
    | none => t
    | some c =>
      let u := match l1Victim t die c line with
        | none => t
        | some x => if x.st = .m ∨ x.st = .o then l1ReturnIn n die c x.line t else l1Notice die c x.line t
      l1Sectors die c line 0xF (sliceServe die c line u)

/-- A dirty copy leaves an L1. -/
def l1Return (die core line : Nat) (s : State) : State := l1ReturnIn (s.coh.l2.length + 1) die core line s

/-- Room in an L1 for a line it does not hold. -/
def l1Room (die core l : Nat) (s : State) : State :=
  match l1Victim s die core l with
  | none => s
  | some x => if x.st = .m ∨ x.st = .o then l1Return die core x.line s else l1Notice die core x.line s

/-- The slice serves a read of a core, whose L1 makes room for the line. -/
def sliceRead (die core l : Nat) (s : State) : State := sliceServe die core l (l1Room die core l s)

/-- The die obtains ownership from the home, where it does not have it (R205). -/
def dieOwn (die l : Nat) (s : State) : State :=
  let x := l2Get s die l
  if x.dstate = .e ∨ x.dstate = .m then s else homeOwn die l s

/-- A die gives a line back to its home: a writeback when it is dirty, else a clean eviction (R209). -/
def leaveDie (die line : Nat) (s : State) : State :=
  if dirtyOn s die line then
    homeWriteback die line (mcacheUse (dieQuota s die) (l2Get s die line).cls line true (dropDie die line s))
  else homeClean die line (dropDie die line s)

/-- A slice gives up a line, its transaction over (R201). -/
def endEvict (die line : Nat) (s : State) : State := leaveDie die line (l2Mod die line (fun y => { y with txn := none }) s)

/-- A slice gives up a line: at once where only L1s hold it, else once its engine has answered (R201). -/
def evict (die line : Nat) (s : State) : State :=
  let hs := holders (l2Get s die line) 99
  if hs.all (· < 32) then endEvict die line s
  else
    let t : Txn := { agent := 99, targets := hs, sent := 0, expect := hs.length, arrived := 0, evict := true }
    l2Mod die line (fun y => { y with txn := some t }) s

/-- The lines of a set of a die's L2. -/
def l2Set (s : State) (die l : Nat) : List L2Line :=
  s.coh.l2.filter (fun x => x.die == die && (x.dstate != .i || x.pins != 0) && setOf x.line == setOf l)

/-- The line that leaves a full set for a fill (07 R188). -/
def l2Victim (s : State) (die cls l : Nat) : Option L2Line :=
  victim (fun c => max 1 (quotaField (dieQuota s die) 0 c)) (·.cls) (fun x => x.pins != 0) (l2Set s die l) cls

/-- Room in its set for a line that the L2 of a die does not hold (07 R182, R188). -/
def l2Room (die cls l : Nat) (s : State) : State :=
  if (l2Set s die l).length < 16 ∨ (l2Set s die l).any (fun x => x.line == l) then s
  else match l2Victim s die cls l with
    | none => s
    | some x => evict die x.line s

/-- A fill need not wait: its set has room, or the line that is to leave can leave at once. -/
def roomFree (s : State) (die cls l : Nat) : Bool :=
  decide ((l2Set s die l).length < 16) || (l2Set s die l).any (fun x => x.line == l) ||
    (l2Victim s die cls l).any (fun x => !lineBusy x)

/-- A read by an agent of a die can be served now. -/
def canRead (s : State) (die : Nat) (core : Option Nat) (cls l : Nat) : Bool :=
  core.any (fun c => (l1Get s die c l).isSome) || (readFree s l && roomFree s die cls l)

/-- The L1 of a core holds the line in M or E, and writes it without a message (R202). -/
def writesSilently (s : State) (die : Nat) (core : Option Nat) (l : Nat) : Bool :=
  core.any (fun c => l1Get s die c l == some .m || l1Get s die c l == some .e)

/-- A write by an agent of a die can be served now. -/
def canWrite (s : State) (die : Nat) (core : Option Nat) (cls l : Nat) : Bool :=
  writesSilently s die core l || (takeFree s nobody l && roomFree s die cls l)

/-- The home serves a request for the line from its memory: no die or module holds newer data. -/
def fromMemory (s : State) (l : Nat) : Bool := (homeGet s l).hstate == .i || (homeGet s l).hstate == .s

/-- Where the L2 of a die misses, its set has room for the line, and memory serves it through the memory-side cache. -/
def l2Allocate (die cls l : Nat) (s : State) : State :=
  if (l2Get s die l).dstate = .i then
    let t := l2Room die cls l s
    if fromMemory t l then mcacheUse (dieQuota t die) cls l false t else t
  else s

/-- Ownership of the line can be granted on the die: it has it, or the other dies can give it up. -/
def grantFree (s : State) (die l : Nat) : Bool :=
  (l2Get s die l).dstate == .e || (l2Get s die l).dstate == .m || takeFree s die l

/-- The transaction of a line is granted once its last acknowledgement has arrived (R205), or the line is evicted (R201). A grant waits
while another die cannot give the line up yet (R209); a die that has lost the line meanwhile makes room for it again. -/
def finishTxn (die line : Nat) (x : Txn) (s : State) : State :=
  if x.evict then endEvict die line s
  else if !grantFree s die line || !roomFree s die 0 line then l2Mod die line (fun y => { y with txn := some x }) s
  else
    let t := l2Mod die line (fun y => ownedBy y (some x.agent)) (keepDram line (dieOwn die line (l2Allocate die 0 line s)))
    if x.agent < 32 then l1Sectors die x.agent line 0xF (l1Put die x.agent line (some .m) (l1Room die x.agent line t)) else t

/-- Start a transaction with its expected acknowledgements fixed; with none expected it ends at once. -/
def startTxn (die line : Nat) (x : Txn) (s : State) : State :=
  if x.expect = 0 then finishTxn die line x s else l2Mod die line (fun y => { y with txn := some x }) s

/-- The die holds the line, after a read at its home where it missed; it takes the class of the request (07 R186). -/
def l2Fill (die cls l : Nat) (s : State) : State :=
  if (l2Get s die l).dstate = .i then
    let t := homeRead die l (l2Allocate die cls l s)
    l2Mod die l (fun x => { x with dstate := grantState t die l, cls := cls }) t
  else s

/-- A read of a line at its slice by an agent that keeps no L1 copy; the line becomes the one used latest (R200, R205). -/
def readSlice (die cls l : Nat) (s : State) : State := l2Mod die l id (ownerAnswers die l (l2Fill die cls l s))

/-- A read of a line by an agent of a die, served whole: a core fills its L1, other agents read the L2; the copy that
serves it becomes the one used latest. -/
def readLine (die : Nat) (core : Option Nat) (cls l : Nat) (s : State) : State :=
  match core with
  | none => readSlice die cls l s
  | some c => if (l1Get s die c l).isSome then l1Put die c l (l1Get s die c l) s else sliceRead die c l (l2Fill die cls l s)

/-- A prefetch of a line into the L1 of a core and the L2 of its die, in S (15 R385). -/
def prefetchLine (die core cls l : Nat) (s : State) : State :=
  let t := l2Fill die cls l s
  if (l1Get t die core l).isSome then t
  else if (l2Get t die l).owner.isSome then l1Sectors die core l 0xF (sliceRead die core l t)
  else l1Sectors die core l 0xF (l1Put die core l (some .s) (l2Mod die l (fun x => addPointer x core) (l1Room die core l t)))

/-- A write into a line by an agent of a die, served whole: an L1 that holds it in M or E writes it without a message; else every
other copy is invalidated, and the line is dirty in the writer's L1, or in the L2 for a Bivouac core or an engine that is done
with it (R202, R205, R240). -/
def ownLineFor (die : Nat) (core : Option Nat) (cls l : Nat) (s : State) : State :=
  let t := if writesSilently s die core l then keepDram l s
    else
      let u := dropL1sBut die core l (keepDram l (dieOwn die l (l2Allocate die cls l s)))
      l2Mod die l (fun x => { (ownedBy x core) with cls := if (l2Get s die l).dstate = .i then cls else x.cls }) u
  match core with
  | none => t
  | some c => l1Put die c l (some .m) (l1Room die c l t)

/-- Every cached copy of a line gives way before an uncached access, and DRAM has its newest data (07 R194). -/
def uncachedRead (l : Nat) (s : State) : State :=
  let t := invalidateOthers nobody l s
  writeDram l (if ownLine s l then homePut { homeGet t l with hstate := .i } t else proxyPut l {} t)

/-- An uncached write at the home: as a read, and the line's monitors are woken (07 R194; 08 R212). -/
def uncachedWrite (l : Nat) (s : State) : State := wakeMonitors l (uncachedRead l s)

/-! ## Requests of a slice (R205) -/

/-- The L1 of a core may hold the line: in a fused cluster only the quarter of bits [8:7] does (07 R178). -/
def quarterOk (s : State) (die core l : Nat) : Bool := !s.coh.fused.getLsbD (die * 8 + core / 4) || core % 4 == l % 4

/-- An agent's request can be started: nothing is in progress on the line, and what it needs from other dies is free; ownership of a
line pinned on the die waits for its release (07 R184). -/
def canStart (s : State) (die agent : Nat) (own : Bool) (line : Nat) : Bool :=
  let x := l2Get s die line
  !x.txn.isSome && !x.fwd.isSome && roomFree s die 0 line &&
    (if own then x.pins == 0 && (engineOwns x || (l2Get s die line).dstate == .e || (l2Get s die line).dstate == .m || takeFree s die line)
     else !engineOwns x && (x.dstate != .i || (s.coh.l2.all (fun y => y.line != line || y.die == die || !lineBusy y) && !proxyOwned s die line))) &&
    decide (agent < 64)

/-- Start an agent's request: a read with an L1 as owner is forwarded to it, another served at once; a request for ownership
sends its invalidations. -/
def startRequest (die agent : Nat) (own : Bool) (line : Nat) (s : State) : State :=
  let t := l2Fill die 0 line s
  if own then
    let hs := holders (l2Get t die line) agent
    startTxn die line { agent := agent, targets := hs, sent := 0, expect := hs.length, arrived := 0, evict := false } t
  else
    match (l2Get t die line).owner with
    | some _ => l2Mod die line (fun x => { x with fwd := some agent }) t
    | none => l1Sectors die agent line 0xF (sliceRead die agent line t)

/-- A request that cannot be started waits behind what is in progress, in arrival order. -/
def takeRequest (die agent : Nat) (own : Bool) (line : Nat) (s : State) : State :=
  if (l2Get s die line).queue.isEmpty && canStart s die agent own line then startRequest die agent own line s
  else l2Mod die line (fun x => { x with queue := x.queue ++ [(agent, own)] }) s

/-- The first waiting request of a line starts, once it can. -/
def serveQueue (die line : Nat) (s : State) : State :=
  match (l2Get s die line).queue with
  | [] => s
  | (agent, own) :: rest =>
    if canStart s die agent own line then startRequest die agent own line (l2Mod die line (fun x => { x with queue := rest }) s) else s

/-! ## Events of a die (R205-R207) -/

/-- SLICE_READ_REQUEST: the slice serves a core's read; behind a transaction of the line it waits, as it does until a recalled
engine has answered, and an owner that is an L1 is forwarded to. -/
def execSliceReadRequest (die core line : Nat) (s : State) : Out :=
  .next (
    if (l1Get s die core line).isSome || !cacheable line || !quarterOk s die core line || decide (32 ≤ core) then s
    else takeRequest die core false line s)

/-- FORWARD: the owner answers a forwarded read (R205). -/
def execForward (die line : Nat) (s : State) : Out :=
  .next (match (l2Get s die line).fwd with
    | none => s
    | some core =>
      serveQueue die line (l1Sectors die core line 0xF (sliceRead die core line (l2Mod die line (fun x => { x with fwd := none }) s))))

/-- INVALIDATION: an agent drops its copy and acknowledges, with the data of a dirty one, or acknowledges not held; a pinned
line answers after its release (R206, 07 R184), and an engine answers by its recall. -/
def execInvalidation (die agent line : Nat) (s : State) : Out :=
  .next (match (l2Get s die line).txn with
    | none => s
    | some x =>
      if !x.targets.contains agent || (l2Get s die line).pins != 0 || decide (32 ≤ agent) then s
      else
        let dirty := l1Get s die agent line == some .m || l1Get s die agent line == some .o
        l2Mod die line (fun y => { (if dirty then takeData y else y) with
          txn := some { x with targets := x.targets.erase agent, sent := x.sent + 1 } })
          (l1Put die agent line none s))

/-- INVALIDATION_ACK: the slice accepts one acknowledgement; after the last the transaction ends and the next waiting request
is served. -/
def execInvalidationAck (die line : Nat) (s : State) : Out :=
  .next (match (l2Get s die line).txn with
    | none => s
    | some x =>
      if x.sent = 0 then (if x.arrived = x.expect then serveQueue die line (finishTxn die line x s) else s)
      else
        let y : Txn := { x with sent := x.sent - 1, arrived := x.arrived + 1 }
        if y.arrived = y.expect then serveQueue die line (finishTxn die line y s)
        else l2Mod die line (fun z => { z with txn := some y }) s)

/-- EVICTION_NOTICE: a clean L1 copy leaves (R204, R206). -/
def execEvictionNotice (die core line : Nat) (s : State) : Out :=
  .next (match l1Get s die core line with
    | some .s | some .e => l1Notice die core line s
    | _ => s)

/-- L1_WRITEBACK: a dirty L1 copy leaves with its data (R206, Table 8-3). -/
def execL1Writeback (die core line : Nat) (s : State) : Out :=
  .next (match l1Get s die core line with
    | some .m | some .o => l1Return die core line s
    | _ => s)

/-- L2_EVICTION: a slice evicts a line that is not pinned, after every L1 copy and engine ownership of it is gone
(R201). -/
def execL2Eviction (die line : Nat) (s : State) : Out :=
  .next (
    let x := l2Get s die line
    if x.dstate = .i || x.pins != 0 || x.txn.isSome then s
    else
      let hs := holders x 99
      startTxn die line { agent := 99, targets := hs, sent := 0, expect := hs.length, arrived := 0, evict := true } s)

/-- Lines that tile fetches of a die, not yet bound, hold pinned (12 R293). -/
def fetchHeld (s : State) (die : Nat) : List Nat :=
  s.ops.flatMap (fun o => match o.kind with
    | .stream j => if j.die = die then j.held else []
    | _ => [])

/-- PIN_RELEASE: one pin of a line that no fetch needs any longer is released (07 R184). -/
def execPinRelease (die line : Nat) (s : State) : Out :=
  .next (if (l2Get s die line).pins ≤ (fetchHeld s die).count line then s
    else serveQueue die line (l2Mod die line (fun x => { x with pins := x.pins - 1 }) s))

/-- A fetch may pin the line: it is pinned already, or fewer than 8 lines of its set are (07 R184). -/
def pinRoom (s : State) (die l : Nat) : Bool :=
  (l2Get s die l).pins != 0 ||
    decide (s.coh.l2.countP (fun x => x.die == die && x.pins != 0 && setOf x.line == setOf l) < 8)

/-- Pin a line on a die, read by a request of a class (07 R184). -/
def pinLine (die cls l : Nat) (s : State) : State :=
  l2Mod die l (fun x => { x with pins := x.pins + 1 }) (readSlice die cls l s)

/-! ## Events at the home (R209, R210) -/

/-- The line can be handled at this module's home. -/
def homeHandles (s : State) (l : Nat) : Bool := cacheable l && ownLine s l

/-- The quotas that govern fills for an agent without a context: 16 ways for every class (07 R187; log 37). -/
abbrev fullQuota : BitVec 64 := 0x0008421000084210

/-- What does not come from a compute die of the module uses the memory-side cache too, under a quota and a class (07 R185-R187). -/
def homeUse (q : BitVec 64) (cls l : Nat) (write : Bool) (s : State) : State :=
  if write || fromMemory s l then mcacheUse q cls l write s else s

/-- A request of another module, with class 0. -/
def foreignUse (l : Nat) (write : Bool) (s : State) : State := homeUse fullQuota 0 l write s

/-- HOME_READ: a home handles a request once nothing is in progress on the line where it would be forwarded (R209). -/
def execHomeRead (agent line : Nat) (s : State) : Out :=
  .next (
    if !homeHandles s line || !readFreeFor s agent line then s
    else if isDie agent then (if roomFree s agent 0 line then l2Fill agent 0 line s else s)
    else homeReadBy agent line (foreignUse line false s))

/-- HOME_OWNERSHIP: granted once every holder can give the line up, a pinned one after its release and an engine after its
recall (R206, R209). -/
def execHomeOwnership (agent line : Nat) (s : State) : Out :=
  .next (
    if !homeHandles s line || !takeFree s agent line then s
    else
      if isDie agent then
        if lineBusy (l2Get s agent line) || !roomFree s agent 0 line then s
        else
          let t := homeOwnBy agent line (l2Allocate agent 0 line s)
          l2Mod agent line (fun x => { x with dstate := .m, coarse := false, owner := none, vector := 0, ptrs := [] })
            (keepDram line (dropL1s agent line t))
      else homeOwnBy agent line (foreignUse line false s))

/-- HOME_UPGRADE: a die that holds the line in S or O is granted M. -/
def execHomeUpgrade (agent line : Nat) (s : State) : Out :=
  .next (
    let x := l2Get s agent line
    if !homeHandles s line || !isDie agent || !(x.dstate == .s || x.dstate == .o) || !takeFree s agent line then s
    else l2Mod agent line (fun x => { x with dstate := .m }) (keepDram line (homeOwnBy agent line s)))

/-- A die may give the line back: no L1 and no engine of it holds the line, nothing is in progress on it and it is not pinned
(R201). -/
def mayLeave (s : State) (die line : Nat) : Bool :=
  let x := l2Get s die line
  (holders x 99).isEmpty && !lineBusy x && x.pins == 0 && s.coh.l1.all (fun y => !(y.die == die && y.line == line))

/-- HOME_CLEAN_EVICTION. -/
def execHomeCleanEviction (agent line : Nat) (s : State) : Out :=
  .next (
    if !homeHandles s line then s
    else if isDie agent then
      if ((l2Get s agent line).dstate = .s ∨ (l2Get s agent line).dstate = .e) ∧ mayLeave s agent line then
        leaveDie agent line s else s
    else homeCleanBy agent line s)

/-- HOME_WRITEBACK. -/
def execHomeWriteback (agent line : Nat) (s : State) : Out :=
  .next (
    if !homeHandles s line then s
    else if isDie agent then
      if ((l2Get s agent line).dstate = .m ∨ (l2Get s agent line).dstate = .o) ∧ mayLeave s agent line then
        leaveDie agent line s else s
    else homeWritebackBy agent line (foreignUse line true s))

/-- Bytes of a line that arrive over a Guyline link: the I/O die computes their check values, and a sector that carries the
poison flag is stored with its poison pattern (01 R31, R33; R51). -/
def ingressLine (line : Nat) (bytes : List Byte) (poisoned : BitVec 4) (s : State) : State :=
  (List.range 4).foldl (fun t i => if poisoned.getLsbD i then poison t (4 * line + i) else t)
    (memWriteAt s (128 * line) (bytes.take 128))

/-- The line of storage that a line of this module reaches (R214). -/
def storageLine (s : State) (l : Nat) : Nat := storagePlace s (128 * l) / 128

/-- PROXY_REQUEST: a request of another module's proxy (R210); a write is performed at the home, and an eviction by the owner
brings its data. -/
def execProxyRequest (module : Nat) (kind : ProxyKind) (named : Nat) (bytes : List Byte) (s : State) : Out :=
  let line := storageLine s named
  let agent := 64 + module
  .next (
    if !homeHandles s named then s
    else
      match kind with
      | .read => if readFreeFor s agent line then homeReadBy agent line (foreignUse line false s) else s
      | .own => if takeFree s agent line then homeOwnBy agent line (foreignUse line false s) else s
      | .write poisoned =>
        if takeFree s nobody line then ingressLine line bytes poisoned (foreignUse line true (uncachedWrite line s)) else s
      | .evict poisoned =>
        if (homeGet s line).owner = some agent then
          if bytes.isEmpty then homeCleanBy agent line s
          else ingressLine line bytes poisoned (homeWritebackBy agent line (foreignUse line true s))
        else homeCleanBy agent line s)

/-- Another module's proxy that holds a line of this module in X answers a recall or a forward: it writes the data back, where it has
changed them, and keeps the line in S or gives it up (R209, R210; log 41). -/
def proxyAnswer (module named : Nat) (bytes : List Byte) (poisoned : BitVec 4) (keeps : Bool) (s : State) : State :=
  let line := storageLine s named
  let e := homeGet s line
  if !homeHandles s named || !(e.hstate == .x) || e.owner != some (64 + module) then s
  else
    let f := { e with owner := none, hstate := if keeps then .s else .i }
    let t := homePut (if keeps then addSharer f (64 + module) else f) s
    if bytes.isEmpty then t else ingressLine line bytes poisoned (wakeMonitors line (writeDram line (foreignUse line true t)))

/-- Another module's home invalidates a line that this module's proxy holds: once every die can give it up they drop it, and the
line then holds other bytes, with the poison flag of each sector (R210; 01 R33; 02 R51; log 41). -/
def proxyInvalidate (line : Nat) (bytes : List Byte) (poisoned : BitVec 4) (s : State) : State :=
  if ownLine s line || !takeFree s nobody line then s
  else
    ingressLine line bytes poisoned (proxyPut line {} (wakeMonitors line (writeDram line (invalidateOthers nobody line s))))

/-- Another module's home forwards a read of a line that the proxy holds in X: it is written back and stays in S (R210; log 41). -/
def proxyForward (line : Nat) (s : State) : State := if ownLine s line || !readFree s line then s else proxyDemote line s

/-- What is being done reaches a line, or a translation, that cannot be served yet: the step it belongs to does not take place
(log 12). -/
def stall (s : State) : State := { s with coh := { s.coh with stalled := true } }

end Sys2Proof.Machine
end

