-- ==== Sys2Proof/Machine/Caches.lean ====
section
/-!
DEFINITION. Accesses served through the caches of a compute die, or at the home where they are mapped uncached, once nothing is
in their way (08 R205-R209; 07 R177, R184, R194); and what a translation leaves in the TLBs, the walker cache and the L2
(07 R193, R195).
-/

namespace Sys2Proof.Machine

open Sys2Proof

/-! ## Accesses that are served, or wait -/

/-- Serve lines one after another; none where one of them cannot be served yet. -/
def serveAll (f : Nat → State → Option State) (ls : List Nat) (s : State) : Option State := ls.foldlM (fun t l => f l t) s

/-- The sectors of a line that addresses lie in. -/
def sectorMask (as : List Nat) (l : Nat) : BitVec 4 :=
  as.foldl (fun m a => if a / 128 = l then m ||| BitVec.twoPow 4 (a / 32 % 4) else m) 0

/-- A core's L1 has the sectors that an access needs (07 R177). -/
def needSectors (die : Nat) (core : Option Nat) (as : List Nat) (l : Nat) (s : State) : State :=
  match core with
  | none => s
  | some c => l1Sectors die c l (sectorMask as l) s

/-- A cached read of addresses in a line. -/
def readServed (die : Nat) (core : Option Nat) (cls : Nat) (as : List Nat) (l : Nat) (s : State) : Option State :=
  if canRead s die core cls l then some (needSectors die core as l (readLine die core cls l s)) else none

/-- A cached write of addresses in a line. -/
def writeServed (die : Nat) (core : Option Nat) (cls : Nat) (as : List Nat) (l : Nat) (s : State) : Option State :=
  if canWrite s die core cls l then some (needSectors die core as l (ownLineFor die core cls l s)) else none

/-- An uncached read of a line at its home, through the memory-side cache (07 R185, R194). -/
def uncachedReadServed (die cls l : Nat) (s : State) : Option State :=
  if takeFree s nobody l then some (mcacheUse (dieQuota s die) cls l false (uncachedRead l s)) else none

/-- An uncached write of a line at its home. -/
def uncachedWriteServed (die cls l : Nat) (s : State) : Option State :=
  if takeFree s nobody l then some (mcacheUse (dieQuota s die) cls l true (uncachedWrite l s)) else none

/-! ## What a translation leaves (07 R193, R195) -/

/-- The access, or else what it belongs to does not take place yet. -/
def servedOr (f : State → Option State) (s : State) : State := (f s).getD (stall s)

/-- A walk's node reads go through the L2 of its die, with class 0 (07 R186, R195). -/
def walkReads (die ctx va : Nat) (s : State) : State :=
  let p := walkStart s die ctx va
  ((linesOf (nodeReads s va p.1 p.2)).filter cacheable).foldl (fun t l => servedOr (readServed die none 0 [] l) t) s

/-- The 2 MiB region of an address: bits [55:21]. -/
def walkRegion (va : Nat) : Nat := bits va 55 21

/-- Walks of a die that run: of those that have arrived the first 64. -/
def runningWalks (s : State) (die : Nat) : List Walk := (s.xlt.walks.filter (fun w => w.die == die)).take 64

/-- A miss waits: a walk of its context and region is in progress, or the walkers of the die are busy (R195). -/
def walkWaits (s : State) (die ctx va : Nat) : Bool :=
  s.xlt.walks.any (fun w => w.die == die && w.ctx == ctx && walkRegion w.va == walkRegion va) ||
    decide (64 ≤ (runningWalks s die).length)

/-- A miss whose walk takes its time: it joins a walk of its context and region, or its own begins, or waits for a walker (R195). -/
def walkBegins (die ctx va : Nat) (s : State) : State :=
  let same (w : Walk) : Bool := w.die == die && w.ctx == ctx && walkRegion w.va == walkRegion va
  if 2 ^ 56 ≤ va || (Tab.get [] s.xlt.die die).any (fun e => e.covers ctx va) then s
  else if s.xlt.walks.any same then
    { s with xlt := { s.xlt with walks := s.xlt.walks.map (fun w => if same w then { w with waiting := w.waiting ++ [va] } else w) } }
  else { s with xlt := { s.xlt with walks := s.xlt.walks ++ [{ die := die, ctx := ctx, va := va, waiting := [va] }] } }

/-- Put an entry into the TLB of a core, or of a Bivouac core. -/
def installIn (biv : Bool) (key : Nat) (e : TlbEntry) (s : State) : State :=
  let x := s.xlt
  { s with xlt :=
      if biv then { x with biv := Tab.put [] x.biv key (lruPut 16 e (Tab.get [] x.biv key)) }
      else { x with core := Tab.put [] x.core key (lruPut 64 e (Tab.get [] x.core key)) } }

/-- The per-die TLB used an entry, or takes it in. -/
def installDie (die : Nat) (e : TlbEntry) (s : State) : State :=
  { s with xlt := { s.xlt with die := Tab.put [] s.xlt.die die (diePut e (Tab.get [] s.xlt.die die)) } }

/-- The pointer that a walk of va began with was used, and those that it read are taken in. -/
def installWalk (die ctx va : Nat) (ptrs : List WalkEntry) (s : State) : State :=
  let ws := Tab.get [] s.xlt.walker die
  let level := (walkStart s die ctx va).1 + 1
  let used := ws.filter (fun w => w.ctx == ctx && w.level == level && w.va == va / 2 ^ (12 + 9 * (level - 1)))
  { s with xlt := { s.xlt with walker := Tab.put [] s.xlt.walker die ((used ++ ptrs).foldl (fun l p => lruPut 256 p l) ws) } }

/-- An agent of a die used the translation of va: its own TLB served it; or the per-die TLB did, and its own takes the entry; or a
walk, whose entry both take; one that ends in a fault has read its nodes, and nothing is cached. A miss that has to wait for a walk
stalls (R195, R196). -/
def installFor (biv : Bool) (key die ctx va : Nat) (s : State) : State :=
  let own := if biv then Tab.get [] s.xlt.biv key else Tab.get [] s.xlt.core key
  match own.find? (fun e => e.covers ctx va) with
  | some e => installIn biv key e s
  | none =>
    match (Tab.get [] s.xlt.die die).find? (fun e => e.covers ctx va) with
    | some e => installIn biv key e (installDie die e s)
    | none =>
      if walkWaits s die ctx va then stall s
      else match walk s die ctx va with
      | .error _ => if 2 ^ 56 ≤ va then s else walkReads die ctx va s
      | .ok p => installIn biv key p.1 (installDie die p.1 (installWalk die ctx va p.2 (walkReads die ctx va s)))

/-- The executing agent used the translation of a. -/
def install (s : State) (a : Nat) : State :=
  installFor s.lane.isSome (if s.lane.isSome then s.g.die * 16 + laneThread s / 4 else coreKey s) s.g.die s.g.ctx a s

/-- The pages of 4 KiB that n bytes at each address reach. -/
def touchedPages (as : List Nat) (n : Nat) : List Nat :=
  ((as.flatMap (fun a => [a, (a + (n - 1)) % 2 ^ 64])).map (fun a => a / 4096)).eraseDups.map (4096 * ·)

/-- The translations of n bytes at each address have been used. -/
def installAll (s : State) (as : List Nat) (n : Nat) : State := (touchedPages as n).foldl install s

/-- A walk of a die for an address ended in a fault: it has read its nodes, and nothing is cached (R195, R196). -/
def faultedWalk (s : State) (w : Nat × Nat × Nat) : State :=
  if walkWaits s w.1 w.2.1 w.2.2 then stall s
  else match walk s w.1 w.2.1 w.2.2 with
    | .ok _ => s
    | .error _ => walkReads w.1 w.2.1 w.2.2 s

/-- The walks that ended in a fault at this step have read their nodes. -/
def endWalks (s : State) : State := s.xlt.ended.foldl faultedWalk { s with xlt := { s.xlt with ended := [] } }

/-- What led to a state reached a line or a translation that cannot be served yet, so that it does not take place (log 12). -/
def stalls (s : State) : Bool := (endWalks s).coh.stalled

/-! ## Lines of an access (07 R186, R194) -/

/-- The lines at the first and the last of n bytes at each address, with the translation of each. -/
def lineEntriesIn (s : State) (look : Nat → Except XFault TlbEntry) (as : List Nat) (n : Nat) : List (Nat × TlbEntry) :=
  as.flatMap (fun a => [a, a + (n - 1)].filterMap (fun b =>
    match look b with
    | .ok e => some (e.phys s b / 128, e)
    | .error _ => none))

/-- Those of the executing agent. -/
def lineEntries (s : State) (as : List Nat) (n : Nat) : List (Nat × TlbEntry) :=
  lineEntriesIn s (fun b => lookup s s.g.die s.g.ctx b (agentTlb s)) as n

/-- The lines, among those of n bytes at each address, that are mapped uncached (07 R194). -/
def uncachedLines (s : State) (as : List Nat) (n : Nat) : List Nat :=
  ((lineEntries s as n).filterMap (fun p => if p.2.unc then some p.1 else none)).eraseDups

/-- The page classes of lines with their translations. -/
def classesOf (xs : List (Nat × TlbEntry)) : Tab Nat := xs.foldl (fun m p => Tab.put 0 m p.1 p.2.cls) []

/-- The page classes of those lines (07 R186). -/
def lineClasses (s : State) (as : List Nat) (n : Nat) : Tab Nat := classesOf (lineEntries s as n)

/-- Serve an access of the executing agent to physical addresses, a read or a write: lines mapped uncached at their home, the others
through the caches of the die (07 R180, R186, R194). -/
def agentServed (write : Bool) (unc : List Nat) (cls : Nat → Nat) (as : List Nat) (s : State) : Option State :=
  serveAll (fun l t =>
    let core := if s.lane.isSome then none else some (l1Core s.g l)
    if unc.contains l then (if write then uncachedWriteServed else uncachedReadServed) s.g.die (cls l) l t
    else (if write then writeServed else readServed) s.g.die core (cls l) as l t) ((linesOf as).filter cacheable) s

/-! ## Program order (10 R239, R241, R244; 06 R162) -/

/-- The operation is performed at a scope, as the wave sees it. -/
def performedAt (s : State) (w : Wave) (sc id : Nat) : Bool :=
  !w.keys.heldFaults.any (fun h => h.op == id) && s.ops.all (fun o => o.id != id || decide (sc < o.done))

/-- Every operation of a list is performed at a scope. -/
def allPerformed (s : State) (w : Wave) (sc : Nat) (ids : List Nat) : Bool := ids.all (performedAt s w sc)

/-- The number of the first operation issued after the ejection of the lane that is executing (06 R162). -/
def laneSince (s : State) : Nat :=
  match s.lane with
  | none => 0
  | some l => ((s.w.ejected.find? (fun e => e.lane == l)).map (·.since)).getD 0

/-- p comes before o in the program order of one wave. The accesses of an ejected lane are ordered with each other, after those made
before its ejection, and before those made after its rejoin or recall (06 R162). -/
def before (p o : Op) : Bool :=
  decide (p.id < o.id) && p.owner == o.owner &&
    ((p.lane == o.lane && p.since == o.since) ||
      ((o.lane.isNone || decide (p.id < o.since)) && (p.lane.isNone || p.rejoined.any (fun r => decide (r ≤ o.id)))))

/-- An operation comes before what the executing agent does now. -/
def earlier (s : State) (p : Op) : Bool :=
  p.owner == s.w.handle && ((p.lane == s.lane && p.since == laneSince s) ||
    ((s.lane.isNone || decide (p.id < laneSince s)) && (p.lane.isNone || p.rejoined.isSome)))

/-- A store that has not reached memory yet is seen by what its wave does now: it comes before that in program order, or has been
accepted into the store queue (10 R241, R242). -/
def seenNow (s : State) (p : Op) : Bool :=
  p.owner == s.w.handle && decide (p.done < 5) && (earlier s p || p.done != 0)

/-- Memory as the wave sees it, with its stores in flight in program order. -/
def ownView (s : State) : State :=
  s.ops.foldl (fun t o =>
    if seenNow s o then
      match o.kind with
      | .store false cells => memWrite t cells
      | .store true cells => { t with g := locStore t.g cells }
      | _ => t
    else t) s

/-- An earlier store of the executing agent to local memory has still to reach a byte from off on, of n. -/
def storeDue (s : State) (off n : Nat) : Bool :=
  s.ops.any (fun p => earlier s p && match p.kind with
    | .store true cells => cells.any (fun c => decide (off ≤ c.1) && decide (c.1 < off + n))
    | _ => false)

end Sys2Proof.Machine
end

