-- ==== Sys2Proof/WellFormed.lean ====
section
/-!
DEFINITION. Which instructions are well formed: every operand code and field value is one the encoding tables assign
(13 R324, R329; 14 R355, R362, R365, R368; 15 R384, R385, R388, R398; 16 R411, R413, R420, R422). A word may carry an ill-formed field;
the machine then raises the exception the instruction's description gives.
-/

namespace Sys2Proof

/-- The constructor and its number agree: an index operand is 0 to 4, a reserved code is a reserved code. -/
def Src.wf : Src → Bool
  | .idx k => k.toNat < 5
  | .resv c => 0xE5 ≤ c.toNat
  | _ => true

/-- Reserved values are 20 to 31. -/
def XSrc.wf : XSrc → Bool
  | .resv c => 20 ≤ c.toNat
  | _ => true

/-- The source is no reserved value. -/
def XSrc.assigned : XSrc → Bool
  | .resv _ => false
  | _ => true

/-- The source is streamed. -/
def XSrc.streamed : XSrc → Bool
  | .stream _ => true
  | _ => false

/-- The element index CVT allows for source type t (14 R362). -/
def cvtIndexOk (t : BitVec 4) (j : BitVec 2) : Bool :=
  match t.toNat with
  | 0x0 => j == 0
  | 0x1 => j == 0
  | 0x4 => j == 0
  | 0x5 => j.toNat < 2
  | 0x6 => j.toNat < 2
  | 0xA => j.toNat < 2
  | 0xB => j.toNat < 2
  | _ => true

/-- The source types CVT allows (14 R362). -/
def cvtTypeOk (t : BitVec 4) : Bool := t != 2 && t != 3 && t != 7

/-- Range of q of XCVT for its destination format, and whether the format is assigned (16 R420). -/
def xcvtOk (fmt : BitVec 4) (q : BitVec 3) : Bool :=
  match fmt.toNat with
  | 0 => q.toNat < 4
  | 1 => q.toNat < 4
  | 2 => q.toNat < 4
  | 3 => q.toNat < 4
  | 4 => q.toNat < 4
  | 5 => q.toNat < 2
  | 6 => q.toNat < 2
  | 8 => true
  | _ => false

/-- The key field of an MMA may be non-zero only with a streamed source (16 R413). -/
def mmaKeyOk (a b : XSrc) (k : BitVec 4) : Bool := k == 0 || a.streamed || b.streamed

/-- How many dies of a kind the package holds (01 Table 1-1). -/
def DieKind.count : DieKind → Nat
  | .compute => 32
  | .memory => 16
  | .io => 2
  | .trust => 1

/-- The operands of an instruction or event are ones its word or its agent can name: source codes agree with their
constructors (so that the encoder and the decoder agree), and dies, cores, links, lanes and lines of 128 bytes exist (01 R9, 02 R49, 05 R125). -/
def Instr.wf : Instr → Bool
  | .nop => true
  | .exit => true
  | .waitf _ => true
  | .mode a b => a.wf && b.wf
  | .yield => true
  | .trap _ => true
  | .bkpt _ => true
  | .br _ _ _ => true
  | .brsZ _ _ => true
  | .brsNz _ _ => true
  | .jmp _ => true
  | .call _ _ => true
  | .ret a => a.wf
  | .jr a b => a.wf && b.wf
  | .jrLink _ a b => a.wf && b.wf
  | .jx _ a => a.wf
  | .joinAt _ _ _ => true
  | .sloop _ _ => true
  | .tret => true
  | .stime _ _ => true
  | .sysr _ _ => true
  | .sysw _ b => b.wf
  | .smov _ _ a => a.wf
  | .smovi _ _ => true
  | .smovhi _ _ => true
  | .sadd _ _ a b => a.wf && b.wf
  | .ssub _ _ a b => a.wf && b.wf
  | .smul _ _ a b => a.wf && b.wf
  | .smulh _ _ a b => a.wf && b.wf
  | .smad _ _ a b => a.wf && b.wf
  | .sdiv _ _ a b => a.wf && b.wf
  | .srem _ _ a b => a.wf && b.wf
  | .sand _ _ a b => a.wf && b.wf
  | .sor _ _ a b => a.wf && b.wf
  | .sxor _ _ a b => a.wf && b.wf
  | .snot _ _ a => a.wf
  | .sshl _ _ a b => a.wf && b.wf
  | .sshr _ _ a b => a.wf && b.wf
  | .ssar _ _ a b => a.wf && b.wf
  | .smin _ _ a b => a.wf && b.wf
  | .smax _ _ a b => a.wf && b.wf
  | .sclz _ _ a => a.wf
  | .spopc _ _ a => a.wf
  | .sbfe _ _ a b => a.wf && b.wf
  | .sbfi _ _ a b => a.wf && b.wf
  | .ssel _ _ a b => a.wf && b.wf
  | .scmpEq _ _ a b => a.wf && b.wf
  | .scmpNe _ _ a b => a.wf && b.wf
  | .scmpLt _ _ a b => a.wf && b.wf
  | .scmpLe _ _ a b => a.wf && b.wf
  | .scmpLtu _ _ a b => a.wf && b.wf
  | .scmpLeu _ _ a b => a.wf && b.wf
  | .vadd _ a b => a.wf && b.wf
  | .vsub _ a b => a.wf && b.wf
  | .vaddc _ a b => a.wf && b.wf
  | .vmul _ a b => a.wf && b.wf
  | .vmulh _ a b => a.wf && b.wf
  | .vmad _ a b => a.wf && b.wf
  | .vand _ a b => a.wf && b.wf
  | .vor _ a b => a.wf && b.wf
  | .vxor _ a b => a.wf && b.wf
  | .vnot _ a => a.wf
  | .vshl _ a b => a.wf && b.wf
  | .vshr _ a b => a.wf && b.wf
  | .vsar _ a b => a.wf && b.wf
  | .vshf _ a b => a.wf && b.wf
  | .vmin _ a b => a.wf && b.wf
  | .vmax _ a b => a.wf && b.wf
  | .vabs _ a => a.wf
  | .vneg _ a => a.wf
  | .vcmp _ _ a b => a.wf && b.wf
  | .vsel _ a b => a.wf && b.wf
  | .vclz _ a => a.wf
  | .vpopc _ a => a.wf
  | .vbfe _ a b => a.wf && b.wf
  | .vbfi _ a b => a.wf && b.wf
  | .vbrev _ a => a.wf
  | .vprmt _ a b => a.wf && b.wf
  | .vclmulLo _ a b => a.wf && b.wf
  | .vclmulHi _ a b => a.wf && b.wf
  | .fadd _ a b => a.wf && b.wf
  | .fsub _ a b => a.wf && b.wf
  | .fmul _ a b => a.wf && b.wf
  | .ffma _ a b => a.wf && b.wf
  | .fmin _ a b => a.wf && b.wf
  | .fmax _ a b => a.wf && b.wf
  | .fcmp _ _ a b => a.wf && b.wf
  | .fclass _ a => a.wf
  | .frnd _ a => a.wf
  | .frcp _ a => a.wf
  | .frsq _ a => a.wf
  | .fsqrt _ a => a.wf
  | .fexp2 _ a => a.wf
  | .flog2 _ a => a.wf
  | .ftanh _ a => a.wf
  | .hadd2 _ a b => a.wf && b.wf
  | .hmul2 _ a b => a.wf && b.wf
  | .hfma2 _ a b => a.wf && b.wf
  | .cvt _ a _ _ => a.wf
  | .cvtpk _ a b => a.wf && b.wf
  | .qswz _ a _ => a.wf
  | .qbcast _ a _ => a.wf
  | .qdx _ a => a.wf
  | .qdy _ a => a.wf
  | .vshfl _ a b => a.wf && b.wf
  | .vballot _ a _ => a.wf
  | .vreadl _ a b => a.wf && b.wf
  | .vwritel _ a b => a.wf && b.wf
  | .vrand _ => true
  | .pand _ _ _ => true
  | .por _ _ _ => true
  | .pxor _ _ _ => true
  | .pnot _ _ => true
  | .pset _ a => a.wf
  | .kclr _ => true
  | .kjoin _ _ _ => true
  | .kfork _ _ => true
  | .kwait _ => true
  | .fence => true
  | .ksend a _ _ => a.wf
  | .karr _ => true
  | .kstat _ _ => true
  | .gbar _ _ => true
  | .gbarPhase _ => true
  | .binit a b => a.wf && b.wf
  | .bexpect a b => a.wf && b.wf
  | .barrive a _ => a.wf
  | .bwait a b => a.wf && b.wf
  | .btest _ a b => a.wf && b.wf
  | .yieldB d p a b => a.wf && b.wf && (p || d == 0)
  | .vgive _ => true
  | .vclaim _ => true
  | .xgive _ => true
  | .xclaim _ => true
  | .xmovr _ _ _ _ _ => true
  | .xmovc _ _ _ _ _ _ => true
  | .ld _ _ _ _ _ _ => true
  | .st _ _ _ _ _ _ => true
  | .ldl _ _ _ _ _ _ => true
  | .stl _ _ _ _ _ _ => true
  | .ldline _ _ _ _ _ _ => true
  | .stline _ _ _ _ _ _ => true
  | .pref _ _ _ _ _ => true
  | .sld _ _ _ _ _ _ => true
  | .sst _ _ _ _ _ _ => true
  | .launch _ _ _ => true
  | .enq _ _ => true
  | .atomAdd _ _ _ _ _ _ => true
  | .atomMin _ _ _ _ _ _ => true
  | .atomMax _ _ _ _ _ _ => true
  | .atomAnd _ _ _ _ _ _ => true
  | .atomOr _ _ _ _ _ _ => true
  | .atomXor _ _ _ _ _ _ => true
  | .atomXchg _ _ _ _ _ _ => true
  | .atomCas _ _ _ _ _ _ => true
  | .atomInc _ _ _ _ _ _ => true
  | .atomDec _ _ _ _ _ _ => true
  | .atomFadd _ _ _ _ _ _ => true
  | .mma _ a b _ _ => a.wf && b.wf
  | .mmabAnd _ a b _ _ => a.wf && b.wf
  | .mmabXor _ a b _ _ => a.wf && b.wf
  | .xscale _ _ => true
  | .xcvt _ _ _ _ _ => true
  | .xzero _ => true
  | .tld _ _ _ _ _ => true
  | .tst _ _ _ _ _ => true
  | .sscan _ _ => true
  | .ssld _ _ => true
  | .ssst _ _ => true
  | .unassignedEncoding _ => true
  | .powerOn => true
  | .packageReset => true
  | .dieRelease kind n => n < kind.count
  | .hostPortTrained port _ _ => port < 2
  | .guylineLinkReady link => link < 18
  | .channelTrainComplete die chan => die < 16 && chan < 16
  | .recoveryPortTimeout => true
  | .recoveryGo => true
  | .recoveryVerifyDone => true
  | .recoveryCommit => true
  | .hostConfigRequest port => port < 2
  | .hostBar2Write _ _ => true
  | .hostBar2Read _ _ => true
  | .getVersion => true
  | .getCapabilities => true
  | .negotiateAlgorithms _ => true
  | .getDigests => true
  | .getCertificate => true
  | .challenge _ => true
  | .getMeasurements _ => true
  | .keyExchange _ => true
  | .portFailover => true
  | .takeover => true
  | .hostWriteAck _ => true
  | .linkFailure link => link < 18
  | .moduleUnreachable module => module < 64
  | .fabricResponseTimeout _ => true
  | .reductionContribution group module _ _ => group < 256 && module < 64
  | .reductionResult group => group < 256
  | .reductionTimeout group => group < 256
  | .redCfgWrite group word _ => group < 256 && word < 4
  | .intlvWrite _ => true
  | .registerWrite _ _ => true
  | .ctxCmdNone => true
  | .ctxCreate ctx _ => ctx < 32
  | .ctxDestroy ctx => ctx < 32
  | .ctxDestroyComplete ctx => ctx < 32
  | .ctxCmdReserved => true
  | .monitorWake line => line < 2 ^ 45
  | .monitorPoll die line => die < 32 && line < 2 ^ 45
  | .packetTake _ => true
  | .queueResume _ => true
  | .groupPlace _ die core => die < 32 && core < 32
  | .coresidentGridPlace _ _ => true
  | .continuationPlace _ die core => die < 32 && core < 32
  | .groupComplete => true
  | .phaseEnd => true
  | .phaseSpill => true
  | .suspendContext ctx => ctx < 32
  | .suspendDrained ctx => ctx < 32
  | .resumeContext ctx => ctx < 32
  | .preemptGrid ctx _ _ => ctx < 32
  | .graceExpiry => true
  | .fullSave => true
  | .xltCmdNone => true
  | .xltInvalidateRange ctx _ => ctx < 32
  | .xltInvalidateAll ctx => ctx < 32
  | .xltCmdReserved => true
  | .xltInvalidateComplete => true
  | .memMoveBlock die block tdie tblock => die < 16 && block < 4096 && tdie < 16 && tblock < 4096
  | .homeSwitch die block => die < 16 && block < 4096
  | .homeSwitchAck die block _ => die < 16 && block < 4096
  | .memOfflineDie die => die < 16
  | .memOnlineDie die => die < 16
  | .memHealLine => true
  | .memCmdReserved => true
  | .computeDieLoss die => die < 32
  | .computeDieRestart die => die < 32
  | .vdieRemap v _ => v < 32
  | .mdieRemap v _ => v < 16
  | .thermalThrottle kind n => n < kind.count
  | .thermalRelease kind n => n < kind.count
  | .computeDieOvertemp die => die < 32
  | .memdieOvertemp kind n => n < kind.count
  | .coolantFault => true
  | .coolantRestored => true
  | .eccUncorrectable _ => true
  | .sliceReadRequest die core line => die < 32 && core < 32 && line < 2 ^ 45
  | .sliceOwnershipRequest die _ line => die < 32 && line < 2 ^ 45
  | .invalidation die _ line => die < 32 && line < 2 ^ 45
  | .invalidationAck die line => die < 32 && line < 2 ^ 45
  | .forward die line => die < 32 && line < 2 ^ 45
  | .engineRecall die line => die < 32 && line < 2 ^ 45
  | .evictionNotice die core line => die < 32 && core < 32 && line < 2 ^ 45
  | .l1Writeback die core line => die < 32 && core < 32 && line < 2 ^ 45
  | .l2Eviction die line => die < 32 && line < 2 ^ 45
  | .homeRead _ line => line < 2 ^ 45
  | .homeOwnership _ line => line < 2 ^ 45
  | .homeUpgrade _ line => line < 2 ^ 45
  | .homeCleanEviction _ line => line < 2 ^ 45
  | .homeWriteback _ line => line < 2 ^ 45
  | .proxyRequest module _ line _ => module < 64 && line < 2 ^ 45
  | .pageWalkComplete die core ctx _ => die < 32 && core < 32 && ctx < 32
  | .pinRelease die line => die < 32 && line < 2 ^ 45
  | .memberPerformed _ => true
  | .faultCopyPlaced => true
  | .deliveryApply => true
  | .remoteKsendDeliver _ => true
  | .ksendAckTimeout _ => true
  | .engineEntryIssue _ => true
  | .copyPerformed _ => true
  | .arrivalCounted _ => true
  | .swapEligible die core slot => die < 32 && core < 32 && slot < 4
  | .forcedSwap die core slot => die < 32 && core < 32 && slot < 4
  | .activeSetFill die core slot => die < 32 && core < 32 && slot < 4
  | .ejectThreadStart lane => lane < 96
  | .laneRejoin => true
  | .laneRecall lane => lane < 96
  | .rejoinSoftLimit => true
  | .rejoinHardLimit => true
  | .claimGrant => true
  | .claimlock slot => slot < 4
  | .loadDataReturn _ => true
  | .matrixBeatWrite _ => true
  | .tileFetchArrival _ => true
  | .stateSpaceComplete _ => true
  | .launchEnqueueComplete _ => true
  | .haltComplete => true
  | .powerRemoval => true
  | .hostPortDlDown port => port < 2

/-- No field of the instruction holds a value that its own description reserves: 14 R355, R362, R365, R368; 15 R384,
R385, R388; 16 R411, R413, R420, R422. A reserved value raises ILLOP with TRAP_DETAIL 1 when the word issues (13 R328). -/
def Instr.fieldsAssigned : Instr → Bool
  | .nop => true
  | .exit => true
  | .waitf _ => true
  | .mode _ _ => true
  | .yield => true
  | .trap _ => true
  | .bkpt _ => true
  | .br _ _ _ => true
  | .brsZ _ _ => true
  | .brsNz _ _ => true
  | .jmp _ => true
  | .call n _ => n != 60 && n != 62
  | .ret _ => true
  | .jr _ _ => true
  | .jrLink m _ _ => m != 60 && m != 62
  | .jx _ _ => true
  | .joinAt _ _ _ => true
  | .sloop n _ => n.toNat < 60
  | .tret => true
  | .stime _ _ => true
  | .sysr _ _ => true
  | .sysw _ _ => true
  | .smov _ _ _ => true
  | .smovi _ _ => true
  | .smovhi _ _ => true
  | .sadd _ _ _ _ => true
  | .ssub _ _ _ _ => true
  | .smul _ _ _ _ => true
  | .smulh _ _ _ _ => true
  | .smad _ _ _ _ => true
  | .sdiv _ _ _ _ => true
  | .srem _ _ _ _ => true
  | .sand _ _ _ _ => true
  | .sor _ _ _ _ => true
  | .sxor _ _ _ _ => true
  | .snot _ _ _ => true
  | .sshl _ _ _ _ => true
  | .sshr _ _ _ _ => true
  | .ssar _ _ _ _ => true
  | .smin _ _ _ _ => true
  | .smax _ _ _ _ => true
  | .sclz _ _ _ => true
  | .spopc _ _ _ => true
  | .sbfe _ _ _ _ => true
  | .sbfi _ _ _ _ => true
  | .ssel _ _ _ _ => true
  | .scmpEq _ _ _ _ => true
  | .scmpNe _ _ _ _ => true
  | .scmpLt _ _ _ _ => true
  | .scmpLe _ _ _ _ => true
  | .scmpLtu _ _ _ _ => true
  | .scmpLeu _ _ _ _ => true
  | .vadd _ _ _ => true
  | .vsub _ _ _ => true
  | .vaddc _ _ _ => true
  | .vmul _ _ _ => true
  | .vmulh _ _ _ => true
  | .vmad _ _ _ => true
  | .vand _ _ _ => true
  | .vor _ _ _ => true
  | .vxor _ _ _ => true
  | .vnot _ _ => true
  | .vshl _ _ _ => true
  | .vshr _ _ _ => true
  | .vsar _ _ _ => true
  | .vshf _ _ _ => true
  | .vmin _ _ _ => true
  | .vmax _ _ _ => true
  | .vabs _ _ => true
  | .vneg _ _ => true
  | .vcmp c _ _ _ => c.toNat < 6
  | .vsel _ _ _ => true
  | .vclz _ _ => true
  | .vpopc _ _ => true
  | .vbfe _ _ _ => true
  | .vbfi _ _ _ => true
  | .vbrev _ _ => true
  | .vprmt _ _ _ => true
  | .vclmulLo _ _ _ => true
  | .vclmulHi _ _ _ => true
  | .fadd _ _ _ => true
  | .fsub _ _ _ => true
  | .fmul _ _ _ => true
  | .ffma _ _ _ => true
  | .fmin _ _ _ => true
  | .fmax _ _ _ => true
  | .fcmp c _ _ _ => c.toNat < 8
  | .fclass _ _ => true
  | .frnd _ _ => true
  | .frcp _ _ => true
  | .frsq _ _ => true
  | .fsqrt _ _ => true
  | .fexp2 _ _ => true
  | .flog2 _ _ => true
  | .ftanh _ _ => true
  | .hadd2 _ _ _ => true
  | .hmul2 _ _ _ => true
  | .hfma2 _ _ _ => true
  | .cvt _ _ t j => cvtTypeOk t && cvtIndexOk t j
  | .cvtpk _ _ _ => true
  | .qswz _ _ _ => true
  | .qbcast _ _ _ => true
  | .qdx _ _ => true
  | .qdy _ _ => true
  | .vshfl _ _ _ => true
  | .vballot _ _ n => n.toNat < 3
  | .vreadl _ _ _ => true
  | .vwritel _ _ _ => true
  | .vrand _ => true
  | .pand _ _ _ => true
  | .por _ _ _ => true
  | .pxor _ _ _ => true
  | .pnot _ _ => true
  | .pset _ _ => true
  | .kclr _ => true
  | .kjoin _ _ _ => true
  | .kfork _ _ => true
  | .kwait _ => true
  | .fence => true
  | .ksend _ _ kr => kr != 0
  | .karr _ => true
  | .kstat _ _ => true
  | .gbar _ _ => true
  | .gbarPhase _ => true
  | .binit _ _ => true
  | .bexpect _ _ => true
  | .barrive _ _ => true
  | .bwait _ _ => true
  | .btest _ _ _ => true
  | .yieldB _ _ _ _ => true
  | .vgive _ => true
  | .vclaim _ => true
  | .xgive _ => true
  | .xclaim _ => true
  | .xmovr _ _ _ _ _ => true
  | .xmovc _ _ side _ imm n => !side || (imm == 0 && n == 0)
  | .ld _ _ _ _ _ _ => true
  | .st _ _ _ _ _ _ => true
  | .ldl _ _ _ _ _ _ => true
  | .stl _ _ _ _ _ _ => true
  | .ldline d _ _ _ _ _ => d.toNat % 8 == 0 && d.toNat ≤ 96
  | .stline d _ _ _ _ _ => d.toNat % 8 == 0 && d.toNat ≤ 96
  | .pref h _ _ _ _ => h.toNat < 3
  | .sld _ _ _ _ _ _ => true
  | .sst _ _ _ _ _ _ => true
  | .launch _ _ _ => true
  | .enq _ _ => true
  | .atomAdd _ _ _ _ _ _ => true
  | .atomMin _ _ _ _ _ _ => true
  | .atomMax _ _ _ _ _ _ => true
  | .atomAnd _ _ _ _ _ _ => true
  | .atomOr _ _ _ _ _ _ => true
  | .atomXor _ _ _ _ _ _ => true
  | .atomXchg _ _ _ _ _ _ => true
  | .atomCas _ _ _ _ _ _ => true
  | .atomInc _ _ _ _ _ _ => true
  | .atomDec _ _ _ _ _ _ => true
  | .atomFadd _ _ _ _ _ _ => true
  | .mma _ a b _ k => a.assigned && b.assigned && mmaKeyOk a b k
  | .mmabAnd _ a b _ k => a.assigned && b.assigned && mmaKeyOk a b k
  | .mmabXor _ a b _ k => a.assigned && b.assigned && mmaKeyOk a b k
  | .xscale _ _ => true
  | .xcvt _ _ _ q fmt => xcvtOk fmt q
  | .xzero _ => true
  | .tld _ _ _ _ _ => true
  | .tst _ _ _ _ _ => true
  | .sscan _ _ => true
  | .ssld _ _ => true
  | .ssst _ _ => true
  | .unassignedEncoding _ => true
  | .powerOn => true
  | .packageReset => true
  | .dieRelease _ _ => true
  | .hostPortTrained _ _ _ => true
  | .guylineLinkReady _ => true
  | .channelTrainComplete _ _ => true
  | .recoveryPortTimeout => true
  | .recoveryGo => true
  | .recoveryVerifyDone => true
  | .recoveryCommit => true
  | .hostConfigRequest _ => true
  | .hostBar2Write _ _ => true
  | .hostBar2Read _ _ => true
  | .getVersion => true
  | .getCapabilities => true
  | .negotiateAlgorithms _ => true
  | .getDigests => true
  | .getCertificate => true
  | .challenge _ => true
  | .getMeasurements _ => true
  | .keyExchange _ => true
  | .portFailover => true
  | .takeover => true
  | .hostWriteAck _ => true
  | .linkFailure _ => true
  | .moduleUnreachable _ => true
  | .fabricResponseTimeout _ => true
  | .reductionContribution _ _ _ _ => true
  | .reductionResult _ => true
  | .reductionTimeout _ => true
  | .redCfgWrite _ _ _ => true
  | .intlvWrite _ => true
  | .registerWrite _ _ => true
  | .ctxCmdNone => true
  | .ctxCreate _ _ => true
  | .ctxDestroy _ => true
  | .ctxDestroyComplete _ => true
  | .ctxCmdReserved => true
  | .monitorWake _ => true
  | .monitorPoll _ _ => true
  | .packetTake _ => true
  | .queueResume _ => true
  | .groupPlace _ _ _ => true
  | .coresidentGridPlace _ _ => true
  | .continuationPlace _ _ _ => true
  | .groupComplete => true
  | .phaseEnd => true
  | .phaseSpill => true
  | .suspendContext _ => true
  | .suspendDrained _ => true
  | .resumeContext _ => true
  | .preemptGrid _ _ _ => true
  | .graceExpiry => true
  | .fullSave => true
  | .xltCmdNone => true
  | .xltInvalidateRange _ _ => true
  | .xltInvalidateAll _ => true
  | .xltCmdReserved => true
  | .xltInvalidateComplete => true
  | .memMoveBlock _ _ _ _ => true
  | .homeSwitch _ _ => true
  | .homeSwitchAck _ _ _ => true
  | .memOfflineDie _ => true
  | .memOnlineDie _ => true
  | .memHealLine => true
  | .memCmdReserved => true
  | .computeDieLoss _ => true
  | .computeDieRestart _ => true
  | .vdieRemap _ _ => true
  | .mdieRemap _ _ => true
  | .thermalThrottle _ _ => true
  | .thermalRelease _ _ => true
  | .computeDieOvertemp _ => true
  | .memdieOvertemp _ _ => true
  | .coolantFault => true
  | .coolantRestored => true
  | .eccUncorrectable _ => true
  | .sliceReadRequest _ _ _ => true
  | .sliceOwnershipRequest _ _ _ => true
  | .invalidation _ _ _ => true
  | .invalidationAck _ _ => true
  | .forward _ _ => true
  | .engineRecall _ _ => true
  | .evictionNotice _ _ _ => true
  | .l1Writeback _ _ _ => true
  | .l2Eviction _ _ => true
  | .homeRead _ _ => true
  | .homeOwnership _ _ => true
  | .homeUpgrade _ _ => true
  | .homeCleanEviction _ _ => true
  | .homeWriteback _ _ => true
  | .proxyRequest _ _ _ _ => true
  | .pageWalkComplete _ _ _ _ => true
  | .pinRelease _ _ => true
  | .memberPerformed _ => true
  | .faultCopyPlaced => true
  | .deliveryApply => true
  | .remoteKsendDeliver _ => true
  | .ksendAckTimeout _ => true
  | .engineEntryIssue _ => true
  | .copyPerformed _ => true
  | .arrivalCounted _ => true
  | .swapEligible _ _ _ => true
  | .forcedSwap _ _ _ => true
  | .activeSetFill _ _ _ => true
  | .ejectThreadStart _ => true
  | .laneRejoin => true
  | .laneRecall _ => true
  | .rejoinSoftLimit => true
  | .rejoinHardLimit => true
  | .claimGrant => true
  | .claimlock _ => true
  | .loadDataReturn _ => true
  | .matrixBeatWrite _ => true
  | .tileFetchArrival _ => true
  | .stateSpaceComplete _ => true
  | .launchEnqueueComplete _ => true
  | .haltComplete => true
  | .powerRemoval => true
  | .hostPortDlDown _ => true

end Sys2Proof
end

