-- ==== Sys2Proof/Decode.lean ====
section
/-!
DEFINITION. The decoder of instruction words, total and rejecting by name (13 R321-R328), and the encoder written from
the same tables (13 Tables 13-5 to 13-9, 14 Table 14-8, 15 Tables 15-1, 15-3, 15-6, 16 Tables 16-1, 16-5).
-/

namespace Sys2Proof

/-- Why a word is no instruction (13 R328, Table 13-10). -/
inductive DecodeError where
  /-- Unassigned major, opcode or minor, or a clause header in a body: TRAP_DETAIL 0. -/
  | unassigned
  /-- A reserved bit or field is not zero: TRAP_DETAIL 1. -/
  | reservedField
deriving DecidableEq, Repr

/-- The operand of a source code (13 Table 13-6). -/
def Src.ofCode (c : BitVec 8) : Src :=
  if c.toNat < 0x80 then .v (c.extractLsb' 0 7)
  else if c.toNat < 0xC0 then .s (c.extractLsb' 0 6)
  else if c.toNat < 0xD0 then .nat (c.extractLsb' 0 4)
  else if c.toNat < 0xD8 then .neg (c.extractLsb' 0 3)
  else if c.toNat < 0xE0 then .flt (c.extractLsb' 0 3)
  else if c.toNat < 0xE5 then .idx (c.extractLsb' 0 3)
  else .resv c

/-- The code of a source operand (13 Table 13-6). -/
def Src.code : Src → BitVec 8
  | .v r => 0#1 ++ r
  | .s r => 2#2 ++ r
  | .nat k => 0xC#4 ++ k
  | .neg k => 0x1A#5 ++ k
  | .flt k => 0x1B#5 ++ k
  | .idx k => 0x1C#5 ++ k
  | .resv c => c

/-- The operand source of MMA and MMAB (16 R411). -/
def XSrc.ofCode (c : BitVec 5) : XSrc :=
  if c.toNat < 16 then .tile (c.extractLsb' 0 4)
  else if c.toNat < 20 then .stream (c.extractLsb' 0 2)
  else .resv c

/-- The field value of an operand source of MMA and MMAB (16 R411). -/
def XSrc.code : XSrc → BitVec 5
  | .tile x => 0#1 ++ x
  | .stream b => 4#3 ++ b
  | .resv c => c

/-- The field of n bits at bit lo is zero. -/
def zero (w : Word) (lo n : Nat) : Bool := w.extractLsb' lo n == 0

/-- An instruction whose reserved fields must be zero (13 R322). -/
def need (ok : Bool) (i : Instr) : Except DecodeError Instr :=
  if ok then .ok i else .error .reservedField

/-- Formats V, S, I, J and X, selected by bits [31:23] (13 R325, R327). -/
def decodeNine (op : Nat) (w : Word) : Except DecodeError Instr :=
  match op with
  | 0x001 => need (zero w 16 7 && zero w 0 16) (.nop)
  | 0x002 => need (zero w 16 7 && zero w 0 16) (.exit)
  | 0x003 => need (zero w 16 7 && zero w 12 4) (.waitf (w.extractLsb' 0 12))
  | 0x004 => need (zero w 17 6 && zero w 16 1) (.mode (Src.ofCode (w.extractLsb' 8 8)) (Src.ofCode (w.extractLsb' 0 8)))
  | 0x005 => need (zero w 16 7 && zero w 0 16) (.yield)
  | 0x006 => need (zero w 16 7) (.trap (w.extractLsb' 0 16))
  | 0x007 => need (zero w 16 7) (.bkpt (w.extractLsb' 0 16))
  | 0x008 => need (zero w 20 3) (.br (w.getLsbD 19) (w.extractLsb' 16 3) (w.extractLsb' 0 16))
  | 0x009 => need (zero w 22 1) (.brsZ (w.extractLsb' 16 6) (w.extractLsb' 0 16))
  | 0x00A => need (zero w 22 1) (.brsNz (w.extractLsb' 16 6) (w.extractLsb' 0 16))
  | 0x00B => need (zero w 16 7) (.jmp (w.extractLsb' 0 16))
  | 0x00C => need (zero w 22 1) (.call (w.extractLsb' 16 6) (w.extractLsb' 0 16))
  | 0x00D => need (zero w 17 6 && zero w 16 1 && zero w 0 8) (.ret (Src.ofCode (w.extractLsb' 8 8)))
  | 0x00E => if w.getLsbD 16 then need (true) (.jrLink (w.extractLsb' 17 6) (Src.ofCode (w.extractLsb' 8 8)) (Src.ofCode (w.extractLsb' 0 8))) else need (zero w 17 6 && zero w 16 1) (.jr (Src.ofCode (w.extractLsb' 8 8)) (Src.ofCode (w.extractLsb' 0 8)))
  | 0x00F => need (zero w 16 1 && zero w 0 8) (.jx (w.extractLsb' 17 6) (Src.ofCode (w.extractLsb' 8 8)))
  | 0x010 => .ok (.joinAt (w.extractLsb' 19 4) (w.getLsbD 18) (w.extractLsb' 0 18))
  | 0x011 => need (zero w 22 1) (.sloop (w.extractLsb' 16 6) (w.extractLsb' 0 16))
  | 0x012 => need (zero w 16 7 && zero w 0 16) (.tret)
  | 0x013 => need (zero w 8 8 && zero w 0 8) (.stime (w.extractLsb' 17 6) (w.getLsbD 16))
  | 0x014 => need (zero w 16 1 && zero w 0 8) (.sysr (w.extractLsb' 17 6) (w.extractLsb' 8 8))
  | 0x015 => need (zero w 17 6 && zero w 16 1) (.sysw (w.extractLsb' 8 8) (Src.ofCode (w.extractLsb' 0 8)))
  | 0x018 => need (zero w 0 8) (.smov (w.extractLsb' 17 6) (w.getLsbD 16) (Src.ofCode (w.extractLsb' 8 8)))
  | 0x019 => need (zero w 22 1) (.smovi (w.extractLsb' 16 6) (w.extractLsb' 0 16))
  | 0x01A => need (zero w 22 1) (.smovhi (w.extractLsb' 16 6) (w.extractLsb' 0 16))
  | 0x01B => .ok (.sadd (w.extractLsb' 17 6) (w.getLsbD 16) (Src.ofCode (w.extractLsb' 8 8)) (Src.ofCode (w.extractLsb' 0 8)))
  | 0x01C => .ok (.ssub (w.extractLsb' 17 6) (w.getLsbD 16) (Src.ofCode (w.extractLsb' 8 8)) (Src.ofCode (w.extractLsb' 0 8)))
  | 0x01D => .ok (.smul (w.extractLsb' 17 6) (w.getLsbD 16) (Src.ofCode (w.extractLsb' 8 8)) (Src.ofCode (w.extractLsb' 0 8)))
  | 0x01E => .ok (.smulh (w.extractLsb' 17 6) (w.getLsbD 16) (Src.ofCode (w.extractLsb' 8 8)) (Src.ofCode (w.extractLsb' 0 8)))
  | 0x01F => .ok (.smad (w.extractLsb' 17 6) (w.getLsbD 16) (Src.ofCode (w.extractLsb' 8 8)) (Src.ofCode (w.extractLsb' 0 8)))
  | 0x020 => .ok (.sdiv (w.extractLsb' 17 6) (w.getLsbD 16) (Src.ofCode (w.extractLsb' 8 8)) (Src.ofCode (w.extractLsb' 0 8)))
  | 0x021 => .ok (.srem (w.extractLsb' 17 6) (w.getLsbD 16) (Src.ofCode (w.extractLsb' 8 8)) (Src.ofCode (w.extractLsb' 0 8)))
  | 0x022 => .ok (.sand (w.extractLsb' 17 6) (w.getLsbD 16) (Src.ofCode (w.extractLsb' 8 8)) (Src.ofCode (w.extractLsb' 0 8)))
  | 0x023 => .ok (.sor (w.extractLsb' 17 6) (w.getLsbD 16) (Src.ofCode (w.extractLsb' 8 8)) (Src.ofCode (w.extractLsb' 0 8)))
  | 0x024 => .ok (.sxor (w.extractLsb' 17 6) (w.getLsbD 16) (Src.ofCode (w.extractLsb' 8 8)) (Src.ofCode (w.extractLsb' 0 8)))
  | 0x025 => need (zero w 0 8) (.snot (w.extractLsb' 17 6) (w.getLsbD 16) (Src.ofCode (w.extractLsb' 8 8)))
  | 0x026 => .ok (.sshl (w.extractLsb' 17 6) (w.getLsbD 16) (Src.ofCode (w.extractLsb' 8 8)) (Src.ofCode (w.extractLsb' 0 8)))
  | 0x027 => .ok (.sshr (w.extractLsb' 17 6) (w.getLsbD 16) (Src.ofCode (w.extractLsb' 8 8)) (Src.ofCode (w.extractLsb' 0 8)))
  | 0x028 => .ok (.ssar (w.extractLsb' 17 6) (w.getLsbD 16) (Src.ofCode (w.extractLsb' 8 8)) (Src.ofCode (w.extractLsb' 0 8)))
  | 0x029 => .ok (.smin (w.extractLsb' 17 6) (w.getLsbD 16) (Src.ofCode (w.extractLsb' 8 8)) (Src.ofCode (w.extractLsb' 0 8)))
  | 0x02A => .ok (.smax (w.extractLsb' 17 6) (w.getLsbD 16) (Src.ofCode (w.extractLsb' 8 8)) (Src.ofCode (w.extractLsb' 0 8)))
  | 0x02B => need (zero w 0 8) (.sclz (w.extractLsb' 17 6) (w.getLsbD 16) (Src.ofCode (w.extractLsb' 8 8)))
  | 0x02C => need (zero w 0 8) (.spopc (w.extractLsb' 17 6) (w.getLsbD 16) (Src.ofCode (w.extractLsb' 8 8)))
  | 0x02D => .ok (.sbfe (w.extractLsb' 17 6) (w.getLsbD 16) (Src.ofCode (w.extractLsb' 8 8)) (Src.ofCode (w.extractLsb' 0 8)))
  | 0x02E => .ok (.sbfi (w.extractLsb' 17 6) (w.getLsbD 16) (Src.ofCode (w.extractLsb' 8 8)) (Src.ofCode (w.extractLsb' 0 8)))
  | 0x02F => .ok (.ssel (w.extractLsb' 17 6) (w.getLsbD 16) (Src.ofCode (w.extractLsb' 8 8)) (Src.ofCode (w.extractLsb' 0 8)))
  | 0x030 => .ok (.scmpEq (w.extractLsb' 17 6) (w.getLsbD 16) (Src.ofCode (w.extractLsb' 8 8)) (Src.ofCode (w.extractLsb' 0 8)))
  | 0x031 => .ok (.scmpNe (w.extractLsb' 17 6) (w.getLsbD 16) (Src.ofCode (w.extractLsb' 8 8)) (Src.ofCode (w.extractLsb' 0 8)))
  | 0x032 => .ok (.scmpLt (w.extractLsb' 17 6) (w.getLsbD 16) (Src.ofCode (w.extractLsb' 8 8)) (Src.ofCode (w.extractLsb' 0 8)))
  | 0x033 => .ok (.scmpLe (w.extractLsb' 17 6) (w.getLsbD 16) (Src.ofCode (w.extractLsb' 8 8)) (Src.ofCode (w.extractLsb' 0 8)))
  | 0x034 => .ok (.scmpLtu (w.extractLsb' 17 6) (w.getLsbD 16) (Src.ofCode (w.extractLsb' 8 8)) (Src.ofCode (w.extractLsb' 0 8)))
  | 0x035 => .ok (.scmpLeu (w.extractLsb' 17 6) (w.getLsbD 16) (Src.ofCode (w.extractLsb' 8 8)) (Src.ofCode (w.extractLsb' 0 8)))
  | 0x038 => .ok (.vadd (w.extractLsb' 16 7) (Src.ofCode (w.extractLsb' 8 8)) (Src.ofCode (w.extractLsb' 0 8)))
  | 0x039 => .ok (.vsub (w.extractLsb' 16 7) (Src.ofCode (w.extractLsb' 8 8)) (Src.ofCode (w.extractLsb' 0 8)))
  | 0x03A => .ok (.vaddc (w.extractLsb' 16 7) (Src.ofCode (w.extractLsb' 8 8)) (Src.ofCode (w.extractLsb' 0 8)))
  | 0x03B => .ok (.vmul (w.extractLsb' 16 7) (Src.ofCode (w.extractLsb' 8 8)) (Src.ofCode (w.extractLsb' 0 8)))
  | 0x03C => .ok (.vmulh (w.extractLsb' 16 7) (Src.ofCode (w.extractLsb' 8 8)) (Src.ofCode (w.extractLsb' 0 8)))
  | 0x03D => .ok (.vmad (w.extractLsb' 16 7) (Src.ofCode (w.extractLsb' 8 8)) (Src.ofCode (w.extractLsb' 0 8)))
  | 0x03E => .ok (.vand (w.extractLsb' 16 7) (Src.ofCode (w.extractLsb' 8 8)) (Src.ofCode (w.extractLsb' 0 8)))
  | 0x03F => .ok (.vor (w.extractLsb' 16 7) (Src.ofCode (w.extractLsb' 8 8)) (Src.ofCode (w.extractLsb' 0 8)))
  | 0x040 => .ok (.vxor (w.extractLsb' 16 7) (Src.ofCode (w.extractLsb' 8 8)) (Src.ofCode (w.extractLsb' 0 8)))
  | 0x041 => need (zero w 0 8) (.vnot (w.extractLsb' 16 7) (Src.ofCode (w.extractLsb' 8 8)))
  | 0x042 => .ok (.vshl (w.extractLsb' 16 7) (Src.ofCode (w.extractLsb' 8 8)) (Src.ofCode (w.extractLsb' 0 8)))
  | 0x043 => .ok (.vshr (w.extractLsb' 16 7) (Src.ofCode (w.extractLsb' 8 8)) (Src.ofCode (w.extractLsb' 0 8)))
  | 0x044 => .ok (.vsar (w.extractLsb' 16 7) (Src.ofCode (w.extractLsb' 8 8)) (Src.ofCode (w.extractLsb' 0 8)))
  | 0x045 => .ok (.vshf (w.extractLsb' 16 7) (Src.ofCode (w.extractLsb' 8 8)) (Src.ofCode (w.extractLsb' 0 8)))
  | 0x046 => .ok (.vmin (w.extractLsb' 16 7) (Src.ofCode (w.extractLsb' 8 8)) (Src.ofCode (w.extractLsb' 0 8)))
  | 0x047 => .ok (.vmax (w.extractLsb' 16 7) (Src.ofCode (w.extractLsb' 8 8)) (Src.ofCode (w.extractLsb' 0 8)))
  | 0x048 => need (zero w 0 8) (.vabs (w.extractLsb' 16 7) (Src.ofCode (w.extractLsb' 8 8)))
  | 0x049 => need (zero w 0 8) (.vneg (w.extractLsb' 16 7) (Src.ofCode (w.extractLsb' 8 8)))
  | 0x04A => .ok (.vcmp (w.extractLsb' 19 4) (w.extractLsb' 16 3) (Src.ofCode (w.extractLsb' 8 8)) (Src.ofCode (w.extractLsb' 0 8)))
  | 0x04B => .ok (.vsel (w.extractLsb' 16 7) (Src.ofCode (w.extractLsb' 8 8)) (Src.ofCode (w.extractLsb' 0 8)))
  | 0x04C => need (zero w 0 8) (.vclz (w.extractLsb' 16 7) (Src.ofCode (w.extractLsb' 8 8)))
  | 0x04D => need (zero w 0 8) (.vpopc (w.extractLsb' 16 7) (Src.ofCode (w.extractLsb' 8 8)))
  | 0x04E => .ok (.vbfe (w.extractLsb' 16 7) (Src.ofCode (w.extractLsb' 8 8)) (Src.ofCode (w.extractLsb' 0 8)))
  | 0x04F => .ok (.vbfi (w.extractLsb' 16 7) (Src.ofCode (w.extractLsb' 8 8)) (Src.ofCode (w.extractLsb' 0 8)))
  | 0x050 => need (zero w 0 8) (.vbrev (w.extractLsb' 16 7) (Src.ofCode (w.extractLsb' 8 8)))
  | 0x051 => .ok (.vprmt (w.extractLsb' 16 7) (Src.ofCode (w.extractLsb' 8 8)) (Src.ofCode (w.extractLsb' 0 8)))
  | 0x052 => .ok (.vclmulLo (w.extractLsb' 16 7) (Src.ofCode (w.extractLsb' 8 8)) (Src.ofCode (w.extractLsb' 0 8)))
  | 0x053 => .ok (.vclmulHi (w.extractLsb' 16 7) (Src.ofCode (w.extractLsb' 8 8)) (Src.ofCode (w.extractLsb' 0 8)))
  | 0x058 => .ok (.fadd (w.extractLsb' 16 7) (Src.ofCode (w.extractLsb' 8 8)) (Src.ofCode (w.extractLsb' 0 8)))
  | 0x059 => .ok (.fsub (w.extractLsb' 16 7) (Src.ofCode (w.extractLsb' 8 8)) (Src.ofCode (w.extractLsb' 0 8)))
  | 0x05A => .ok (.fmul (w.extractLsb' 16 7) (Src.ofCode (w.extractLsb' 8 8)) (Src.ofCode (w.extractLsb' 0 8)))
  | 0x05B => .ok (.ffma (w.extractLsb' 16 7) (Src.ofCode (w.extractLsb' 8 8)) (Src.ofCode (w.extractLsb' 0 8)))
  | 0x05C => .ok (.fmin (w.extractLsb' 16 7) (Src.ofCode (w.extractLsb' 8 8)) (Src.ofCode (w.extractLsb' 0 8)))
  | 0x05D => .ok (.fmax (w.extractLsb' 16 7) (Src.ofCode (w.extractLsb' 8 8)) (Src.ofCode (w.extractLsb' 0 8)))
  | 0x05E => .ok (.fcmp (w.extractLsb' 19 4) (w.extractLsb' 16 3) (Src.ofCode (w.extractLsb' 8 8)) (Src.ofCode (w.extractLsb' 0 8)))
  | 0x05F => need (zero w 0 8) (.fclass (w.extractLsb' 16 7) (Src.ofCode (w.extractLsb' 8 8)))
  | 0x060 => need (zero w 0 8) (.frnd (w.extractLsb' 16 7) (Src.ofCode (w.extractLsb' 8 8)))
  | 0x061 => need (zero w 0 8) (.frcp (w.extractLsb' 16 7) (Src.ofCode (w.extractLsb' 8 8)))
  | 0x062 => need (zero w 0 8) (.frsq (w.extractLsb' 16 7) (Src.ofCode (w.extractLsb' 8 8)))
  | 0x063 => need (zero w 0 8) (.fsqrt (w.extractLsb' 16 7) (Src.ofCode (w.extractLsb' 8 8)))
  | 0x064 => need (zero w 0 8) (.fexp2 (w.extractLsb' 16 7) (Src.ofCode (w.extractLsb' 8 8)))
  | 0x065 => need (zero w 0 8) (.flog2 (w.extractLsb' 16 7) (Src.ofCode (w.extractLsb' 8 8)))
  | 0x066 => need (zero w 0 8) (.ftanh (w.extractLsb' 16 7) (Src.ofCode (w.extractLsb' 8 8)))
  | 0x068 => .ok (.hadd2 (w.extractLsb' 16 7) (Src.ofCode (w.extractLsb' 8 8)) (Src.ofCode (w.extractLsb' 0 8)))
  | 0x069 => .ok (.hmul2 (w.extractLsb' 16 7) (Src.ofCode (w.extractLsb' 8 8)) (Src.ofCode (w.extractLsb' 0 8)))
  | 0x06A => .ok (.hfma2 (w.extractLsb' 16 7) (Src.ofCode (w.extractLsb' 8 8)) (Src.ofCode (w.extractLsb' 0 8)))
  | 0x06B => need (zero w 6 2) (.cvt (w.extractLsb' 16 7) (Src.ofCode (w.extractLsb' 8 8)) (w.extractLsb' 0 4) (w.extractLsb' 4 2))
  | 0x06C => .ok (.cvtpk (w.extractLsb' 16 7) (Src.ofCode (w.extractLsb' 8 8)) (Src.ofCode (w.extractLsb' 0 8)))
  | 0x070 => .ok (.qswz (w.extractLsb' 16 7) (Src.ofCode (w.extractLsb' 8 8)) (w.extractLsb' 0 8))
  | 0x071 => need (zero w 2 6) (.qbcast (w.extractLsb' 16 7) (Src.ofCode (w.extractLsb' 8 8)) (w.extractLsb' 0 2))
  | 0x072 => need (zero w 0 8) (.qdx (w.extractLsb' 16 7) (Src.ofCode (w.extractLsb' 8 8)))
  | 0x073 => need (zero w 0 8) (.qdy (w.extractLsb' 16 7) (Src.ofCode (w.extractLsb' 8 8)))
  | 0x074 => .ok (.vshfl (w.extractLsb' 16 7) (Src.ofCode (w.extractLsb' 8 8)) (Src.ofCode (w.extractLsb' 0 8)))
  | 0x075 => need (zero w 16 1) (.vballot (w.extractLsb' 17 6) (Src.ofCode (w.extractLsb' 8 8)) (w.extractLsb' 0 8))
  | 0x076 => need (zero w 16 1) (.vreadl (w.extractLsb' 17 6) (Src.ofCode (w.extractLsb' 8 8)) (Src.ofCode (w.extractLsb' 0 8)))
  | 0x077 => .ok (.vwritel (w.extractLsb' 16 7) (Src.ofCode (w.extractLsb' 8 8)) (Src.ofCode (w.extractLsb' 0 8)))
  | 0x078 => need (zero w 8 8 && zero w 0 8) (.vrand (w.extractLsb' 16 7))
  | 0x079 => need (zero w 19 4 && zero w 12 4 && zero w 4 4) (.pand (w.extractLsb' 16 3) (w.extractLsb' 8 4) (w.extractLsb' 0 4))
  | 0x07A => need (zero w 19 4 && zero w 12 4 && zero w 4 4) (.por (w.extractLsb' 16 3) (w.extractLsb' 8 4) (w.extractLsb' 0 4))
  | 0x07B => need (zero w 19 4 && zero w 12 4 && zero w 4 4) (.pxor (w.extractLsb' 16 3) (w.extractLsb' 8 4) (w.extractLsb' 0 4))
  | 0x07C => need (zero w 19 4 && zero w 12 4 && zero w 0 8) (.pnot (w.extractLsb' 16 3) (w.extractLsb' 8 4))
  | 0x07D => need (zero w 19 4 && zero w 0 8) (.pset (w.extractLsb' 16 3) (Src.ofCode (w.extractLsb' 8 8)))
  | 0x080 => need (zero w 16 7 && zero w 4 12) (.kclr (w.extractLsb' 0 4))
  | 0x081 => need (zero w 16 7 && zero w 12 4) (.kjoin (w.extractLsb' 8 4) (w.extractLsb' 4 4) (w.extractLsb' 0 4))
  | 0x082 => need (zero w 16 7 && zero w 12 4 && zero w 4 4) (.kfork (w.extractLsb' 8 4) (w.extractLsb' 0 4))
  | 0x083 => need (zero w 16 7 && zero w 4 12) (.kwait (w.extractLsb' 0 4))
  | 0x084 => need (zero w 16 7 && zero w 0 16) (.fence)
  | 0x085 => need (zero w 17 6 && w.getLsbD 16) (.ksend (Src.ofCode (w.extractLsb' 8 8)) (w.extractLsb' 0 4) (w.extractLsb' 4 4))
  | 0x086 => need (zero w 16 7 && zero w 4 12) (.karr (w.extractLsb' 0 4))
  | 0x087 => need (zero w 16 1 && zero w 8 8 && zero w 4 4) (.kstat (w.extractLsb' 17 6) (w.extractLsb' 0 4))
  | 0x088 => need (zero w 16 7 && zero w 8 8 && zero w 2 2) (.gbar (w.extractLsb' 0 2) (w.extractLsb' 4 4))
  | 0x089 => need (zero w 16 7 && zero w 8 8 && zero w 0 4) (.gbarPhase (w.extractLsb' 4 4))
  | 0x08A => need (zero w 17 6 && w.getLsbD 16) (.binit (Src.ofCode (w.extractLsb' 8 8)) (Src.ofCode (w.extractLsb' 0 8)))
  | 0x08B => need (zero w 17 6 && zero w 16 1) (.bexpect (Src.ofCode (w.extractLsb' 8 8)) (Src.ofCode (w.extractLsb' 0 8)))
  | 0x08C => need (zero w 17 6 && zero w 16 1 && zero w 4 4) (.barrive (Src.ofCode (w.extractLsb' 8 8)) (w.extractLsb' 0 4))
  | 0x08D => need (zero w 17 6 && zero w 16 1) (.bwait (Src.ofCode (w.extractLsb' 8 8)) (Src.ofCode (w.extractLsb' 0 8)))
  | 0x08E => need (zero w 16 1) (.btest (w.extractLsb' 17 6) (Src.ofCode (w.extractLsb' 8 8)) (Src.ofCode (w.extractLsb' 0 8)))
  | 0x08F => need ((w.getLsbD 16 || zero w 17 6)) (.yieldB (w.extractLsb' 17 6) (w.getLsbD 16) (Src.ofCode (w.extractLsb' 8 8)) (Src.ofCode (w.extractLsb' 0 8)))
  | 0x090 => need (zero w 16 7) (.vgive (w.extractLsb' 0 16))
  | 0x091 => need (zero w 16 7) (.vclaim (w.extractLsb' 0 16))
  | 0x092 => need (zero w 16 7) (.xgive (w.extractLsb' 0 16))
  | 0x093 => need (zero w 16 7) (.xclaim (w.extractLsb' 0 16))
  | 0x094 => need (zero w 14 1 && zero w 6 2) (.xmovr (w.extractLsb' 16 7) (w.getLsbD 15) (w.extractLsb' 10 4) (w.extractLsb' 8 2) (w.extractLsb' 0 6))
  | 0x095 => need (zero w 6 2) (.xmovc (w.extractLsb' 16 7) (w.getLsbD 15) (w.getLsbD 14) (w.extractLsb' 10 4) (w.extractLsb' 8 2) (w.extractLsb' 0 6))
  | 0x1B0 => .ok (.mma (w.extractLsb' 19 4) (XSrc.ofCode (w.extractLsb' 14 5)) (XSrc.ofCode (w.extractLsb' 9 5)) (w.extractLsb' 4 5) (w.extractLsb' 0 4))
  | 0x1B1 => .ok (.mmabAnd (w.extractLsb' 19 4) (XSrc.ofCode (w.extractLsb' 14 5)) (XSrc.ofCode (w.extractLsb' 9 5)) (w.extractLsb' 4 5) (w.extractLsb' 0 4))
  | 0x1B2 => .ok (.mmabXor (w.extractLsb' 19 4) (XSrc.ofCode (w.extractLsb' 14 5)) (XSrc.ofCode (w.extractLsb' 9 5)) (w.extractLsb' 4 5) (w.extractLsb' 0 4))
  | 0x1B3 => need (zero w 14 5 && zero w 9 5 && zero w 0 4) (.xscale (w.extractLsb' 19 4) (w.extractLsb' 4 5))
  | 0x1B4 => need (zero w 18 1 && zero w 13 1 && zero w 8 1 && zero w 0 4) (.xcvt (w.extractLsb' 19 4) (w.extractLsb' 14 4) (w.getLsbD 12) (w.extractLsb' 9 3) (w.extractLsb' 4 4))
  | 0x1B5 => need (zero w 14 5 && zero w 9 5 && zero w 4 5 && zero w 0 4) (.xzero (w.extractLsb' 19 4))
  | 0x1B6 => need (zero w 16 3 && zero w 9 5) (.tld (w.extractLsb' 19 4) (w.getLsbD 15) (w.getLsbD 14) (w.extractLsb' 4 5) (w.extractLsb' 0 4))
  | 0x1B7 => need (zero w 16 3 && zero w 9 5) (.tst (w.extractLsb' 19 4) (w.getLsbD 15) (w.getLsbD 14) (w.extractLsb' 4 5) (w.extractLsb' 0 4))
  | 0x1B8 => need (zero w 19 4 && zero w 14 5 && zero w 9 5) (.sscan (w.extractLsb' 4 5) (w.extractLsb' 0 4))
  | 0x1B9 => need (zero w 19 4 && zero w 14 5 && zero w 9 5) (.ssld (w.extractLsb' 4 5) (w.extractLsb' 0 4))
  | 0x1BA => need (zero w 19 4 && zero w 14 5 && zero w 9 5) (.ssst (w.extractLsb' 4 5) (w.extractLsb' 0 4))
  | _ => .error .unassigned

/-- Format M, selected by bits [31:26] (13 R326, 15 R376). -/
def decodeM (major : Nat) (w : Word) : Except DecodeError Instr :=
  match major with
  | 0x020 => need (zero w 8 1) (.ld (w.extractLsb' 19 7) (w.extractLsb' 12 7) (w.extractLsb' 10 2) (w.getLsbD 9) (w.extractLsb' 4 4) (w.extractLsb' 0 4))
  | 0x021 => need (zero w 8 1) (.st (w.extractLsb' 19 7) (w.extractLsb' 12 7) (w.extractLsb' 10 2) (w.getLsbD 9) (w.extractLsb' 4 4) (w.extractLsb' 0 4))
  | 0x022 => need (zero w 8 1) (.ldl (w.extractLsb' 19 7) (w.extractLsb' 12 7) (w.extractLsb' 10 2) (w.getLsbD 9) (w.extractLsb' 4 4) (w.extractLsb' 0 4))
  | 0x023 => need (zero w 8 1) (.stl (w.extractLsb' 19 7) (w.extractLsb' 12 7) (w.extractLsb' 10 2) (w.getLsbD 9) (w.extractLsb' 4 4) (w.extractLsb' 0 4))
  | 0x024 => need (zero w 8 1) (.ldline (w.extractLsb' 19 7) (w.extractLsb' 12 7) (w.extractLsb' 10 2) (w.getLsbD 9) (w.extractLsb' 4 4) (w.extractLsb' 0 4))
  | 0x025 => need (zero w 8 1) (.stline (w.extractLsb' 19 7) (w.extractLsb' 12 7) (w.extractLsb' 10 2) (w.getLsbD 9) (w.extractLsb' 4 4) (w.extractLsb' 0 4))
  | 0x026 => need (zero w 9 1 && zero w 8 1) (.pref (w.extractLsb' 19 7) (w.extractLsb' 12 7) (w.extractLsb' 10 2) (w.extractLsb' 4 4) (w.extractLsb' 0 4))
  | 0x027 => need (zero w 25 1 && zero w 18 1 && zero w 8 1) (.sld (w.extractLsb' 19 6) (w.extractLsb' 12 6) (w.extractLsb' 10 2) (w.getLsbD 9) (w.extractLsb' 4 4) (w.extractLsb' 0 4))
  | 0x028 => need (zero w 25 1 && zero w 18 1 && zero w 8 1) (.sst (w.extractLsb' 19 6) (w.extractLsb' 12 6) (w.extractLsb' 10 2) (w.getLsbD 9) (w.extractLsb' 4 4) (w.extractLsb' 0 4))
  | 0x029 => need (zero w 19 7 && w.getLsbD 9 && zero w 8 1 && zero w 4 4) (.launch (w.extractLsb' 12 7) (w.extractLsb' 10 2) (w.extractLsb' 0 4))
  | 0x02A => need (zero w 19 7 && zero w 12 7 && zero w 9 1 && zero w 8 1 && zero w 4 4) (.enq (w.extractLsb' 10 2) (w.extractLsb' 0 4))
  | 0x02B => need (zero w 8 1) (.atomAdd (w.extractLsb' 19 7) (w.extractLsb' 12 7) (w.extractLsb' 10 2) (w.getLsbD 9) (w.extractLsb' 4 4) (w.extractLsb' 0 4))
  | 0x02C => need (zero w 8 1) (.atomMin (w.extractLsb' 19 7) (w.extractLsb' 12 7) (w.extractLsb' 10 2) (w.getLsbD 9) (w.extractLsb' 4 4) (w.extractLsb' 0 4))
  | 0x02D => need (zero w 8 1) (.atomMax (w.extractLsb' 19 7) (w.extractLsb' 12 7) (w.extractLsb' 10 2) (w.getLsbD 9) (w.extractLsb' 4 4) (w.extractLsb' 0 4))
  | 0x02E => need (zero w 8 1) (.atomAnd (w.extractLsb' 19 7) (w.extractLsb' 12 7) (w.extractLsb' 10 2) (w.getLsbD 9) (w.extractLsb' 4 4) (w.extractLsb' 0 4))
  | 0x02F => need (zero w 8 1) (.atomOr (w.extractLsb' 19 7) (w.extractLsb' 12 7) (w.extractLsb' 10 2) (w.getLsbD 9) (w.extractLsb' 4 4) (w.extractLsb' 0 4))
  | 0x030 => need (zero w 8 1) (.atomXor (w.extractLsb' 19 7) (w.extractLsb' 12 7) (w.extractLsb' 10 2) (w.getLsbD 9) (w.extractLsb' 4 4) (w.extractLsb' 0 4))
  | 0x031 => need (zero w 8 1) (.atomXchg (w.extractLsb' 19 7) (w.extractLsb' 12 7) (w.extractLsb' 10 2) (w.getLsbD 9) (w.extractLsb' 4 4) (w.extractLsb' 0 4))
  | 0x032 => need (zero w 8 1) (.atomCas (w.extractLsb' 19 7) (w.extractLsb' 12 7) (w.extractLsb' 10 2) (w.getLsbD 9) (w.extractLsb' 4 4) (w.extractLsb' 0 4))
  | 0x033 => need (zero w 8 1) (.atomInc (w.extractLsb' 19 7) (w.extractLsb' 12 7) (w.extractLsb' 10 2) (w.getLsbD 9) (w.extractLsb' 4 4) (w.extractLsb' 0 4))
  | 0x034 => need (zero w 8 1) (.atomDec (w.extractLsb' 19 7) (w.extractLsb' 12 7) (w.extractLsb' 10 2) (w.getLsbD 9) (w.extractLsb' 4 4) (w.extractLsb' 0 4))
  | 0x035 => need (zero w 8 1) (.atomFadd (w.extractLsb' 19 7) (w.extractLsb' 12 7) (w.extractLsb' 10 2) (w.getLsbD 9) (w.extractLsb' 4 4) (w.extractLsb' 0 4))
  | _ => .error .unassigned

/-- The instruction a body word holds (13 R321). -/
def decode (w : Word) : Except DecodeError Instr :=
  if 0x20 ≤ (w.extractLsb' 26 6).toNat ∧ (w.extractLsb' 26 6).toNat ≤ 0x35 then decodeM (w.extractLsb' 26 6).toNat w
  else decodeNine (w.extractLsb' 23 9).toNat w

/-- The decoder of a host's table word: one 32-bit word; a row is never wider (13 R321). -/
def decodeTableWord (nbits w : Nat) : Option Instr :=
  if nbits ≤ 32 then
    match decode (BitVec.ofNat 32 w) with
    | .ok i => some i
    | .error _ => none
  else none

/-- The word of an instruction that has one; events and the row of unassigned words have none. -/
def encode : Instr → Option Word
  | .nop => some (0x1#9 ++ 0#7 ++ 0#16)
  | .exit => some (0x2#9 ++ 0#7 ++ 0#16)
  | .waitf f => some (0x3#9 ++ 0#7 ++ 0#4 ++ f)
  | .mode a b => some (0x4#9 ++ 0#6 ++ 0#1 ++ a.code ++ b.code)
  | .yield => some (0x5#9 ++ 0#7 ++ 0#16)
  | .trap imm => some (0x6#9 ++ 0#7 ++ imm)
  | .bkpt imm => some (0x7#9 ++ 0#7 ++ imm)
  | .br inv g off => some (0x8#9 ++ 0#3 ++ BitVec.ofBool inv ++ g ++ off)
  | .brsZ n off => some (0x9#9 ++ 0#1 ++ n ++ off)
  | .brsNz n off => some (0xA#9 ++ 0#1 ++ n ++ off)
  | .jmp off => some (0xB#9 ++ 0#7 ++ off)
  | .call n off => some (0xC#9 ++ 0#1 ++ n ++ off)
  | .ret a => some (0xD#9 ++ 0#6 ++ 0#1 ++ a.code ++ 0#8)
  | .jr a b => some (0xE#9 ++ 0#6 ++ 0#1 ++ a.code ++ b.code)
  | .jrLink m a b => some (0xE#9 ++ m ++ 1#1 ++ a.code ++ b.code)
  | .jx d a => some (0xF#9 ++ d ++ 0#1 ++ a.code ++ 0#8)
  | .joinAt l e off => some (0x10#9 ++ l ++ BitVec.ofBool e ++ off)
  | .sloop n off => some (0x11#9 ++ 0#1 ++ n ++ off)
  | .tret => some (0x12#9 ++ 0#7 ++ 0#16)
  | .stime d p => some (0x13#9 ++ d ++ BitVec.ofBool p ++ 0#8 ++ 0#8)
  | .sysr d n => some (0x14#9 ++ d ++ 0#1 ++ n ++ 0#8)
  | .sysw n b => some (0x15#9 ++ 0#6 ++ 0#1 ++ n ++ b.code)
  | .smov d p a => some (0x18#9 ++ d ++ BitVec.ofBool p ++ a.code ++ 0#8)
  | .smovi d imm => some (0x19#9 ++ 0#1 ++ d ++ imm)
  | .smovhi d imm => some (0x1A#9 ++ 0#1 ++ d ++ imm)
  | .sadd d p a b => some (0x1B#9 ++ d ++ BitVec.ofBool p ++ a.code ++ b.code)
  | .ssub d p a b => some (0x1C#9 ++ d ++ BitVec.ofBool p ++ a.code ++ b.code)
  | .smul d p a b => some (0x1D#9 ++ d ++ BitVec.ofBool p ++ a.code ++ b.code)
  | .smulh d p a b => some (0x1E#9 ++ d ++ BitVec.ofBool p ++ a.code ++ b.code)
  | .smad d p a b => some (0x1F#9 ++ d ++ BitVec.ofBool p ++ a.code ++ b.code)
  | .sdiv d p a b => some (0x20#9 ++ d ++ BitVec.ofBool p ++ a.code ++ b.code)
  | .srem d p a b => some (0x21#9 ++ d ++ BitVec.ofBool p ++ a.code ++ b.code)
  | .sand d p a b => some (0x22#9 ++ d ++ BitVec.ofBool p ++ a.code ++ b.code)
  | .sor d p a b => some (0x23#9 ++ d ++ BitVec.ofBool p ++ a.code ++ b.code)
  | .sxor d p a b => some (0x24#9 ++ d ++ BitVec.ofBool p ++ a.code ++ b.code)
  | .snot d p a => some (0x25#9 ++ d ++ BitVec.ofBool p ++ a.code ++ 0#8)
  | .sshl d p a b => some (0x26#9 ++ d ++ BitVec.ofBool p ++ a.code ++ b.code)
  | .sshr d p a b => some (0x27#9 ++ d ++ BitVec.ofBool p ++ a.code ++ b.code)
  | .ssar d p a b => some (0x28#9 ++ d ++ BitVec.ofBool p ++ a.code ++ b.code)
  | .smin d p a b => some (0x29#9 ++ d ++ BitVec.ofBool p ++ a.code ++ b.code)
  | .smax d p a b => some (0x2A#9 ++ d ++ BitVec.ofBool p ++ a.code ++ b.code)
  | .sclz d p a => some (0x2B#9 ++ d ++ BitVec.ofBool p ++ a.code ++ 0#8)
  | .spopc d p a => some (0x2C#9 ++ d ++ BitVec.ofBool p ++ a.code ++ 0#8)
  | .sbfe d p a b => some (0x2D#9 ++ d ++ BitVec.ofBool p ++ a.code ++ b.code)
  | .sbfi d p a b => some (0x2E#9 ++ d ++ BitVec.ofBool p ++ a.code ++ b.code)
  | .ssel d p a b => some (0x2F#9 ++ d ++ BitVec.ofBool p ++ a.code ++ b.code)
  | .scmpEq d p a b => some (0x30#9 ++ d ++ BitVec.ofBool p ++ a.code ++ b.code)
  | .scmpNe d p a b => some (0x31#9 ++ d ++ BitVec.ofBool p ++ a.code ++ b.code)
  | .scmpLt d p a b => some (0x32#9 ++ d ++ BitVec.ofBool p ++ a.code ++ b.code)
  | .scmpLe d p a b => some (0x33#9 ++ d ++ BitVec.ofBool p ++ a.code ++ b.code)
  | .scmpLtu d p a b => some (0x34#9 ++ d ++ BitVec.ofBool p ++ a.code ++ b.code)
  | .scmpLeu d p a b => some (0x35#9 ++ d ++ BitVec.ofBool p ++ a.code ++ b.code)
  | .vadd d a b => some (0x38#9 ++ d ++ a.code ++ b.code)
  | .vsub d a b => some (0x39#9 ++ d ++ a.code ++ b.code)
  | .vaddc d a b => some (0x3A#9 ++ d ++ a.code ++ b.code)
  | .vmul d a b => some (0x3B#9 ++ d ++ a.code ++ b.code)
  | .vmulh d a b => some (0x3C#9 ++ d ++ a.code ++ b.code)
  | .vmad d a b => some (0x3D#9 ++ d ++ a.code ++ b.code)
  | .vand d a b => some (0x3E#9 ++ d ++ a.code ++ b.code)
  | .vor d a b => some (0x3F#9 ++ d ++ a.code ++ b.code)
  | .vxor d a b => some (0x40#9 ++ d ++ a.code ++ b.code)
  | .vnot d a => some (0x41#9 ++ d ++ a.code ++ 0#8)
  | .vshl d a b => some (0x42#9 ++ d ++ a.code ++ b.code)
  | .vshr d a b => some (0x43#9 ++ d ++ a.code ++ b.code)
  | .vsar d a b => some (0x44#9 ++ d ++ a.code ++ b.code)
  | .vshf d a b => some (0x45#9 ++ d ++ a.code ++ b.code)
  | .vmin d a b => some (0x46#9 ++ d ++ a.code ++ b.code)
  | .vmax d a b => some (0x47#9 ++ d ++ a.code ++ b.code)
  | .vabs d a => some (0x48#9 ++ d ++ a.code ++ 0#8)
  | .vneg d a => some (0x49#9 ++ d ++ a.code ++ 0#8)
  | .vcmp c g a b => some (0x4A#9 ++ c ++ g ++ a.code ++ b.code)
  | .vsel d a b => some (0x4B#9 ++ d ++ a.code ++ b.code)
  | .vclz d a => some (0x4C#9 ++ d ++ a.code ++ 0#8)
  | .vpopc d a => some (0x4D#9 ++ d ++ a.code ++ 0#8)
  | .vbfe d a b => some (0x4E#9 ++ d ++ a.code ++ b.code)
  | .vbfi d a b => some (0x4F#9 ++ d ++ a.code ++ b.code)
  | .vbrev d a => some (0x50#9 ++ d ++ a.code ++ 0#8)
  | .vprmt d a b => some (0x51#9 ++ d ++ a.code ++ b.code)
  | .vclmulLo d a b => some (0x52#9 ++ d ++ a.code ++ b.code)
  | .vclmulHi d a b => some (0x53#9 ++ d ++ a.code ++ b.code)
  | .fadd d a b => some (0x58#9 ++ d ++ a.code ++ b.code)
  | .fsub d a b => some (0x59#9 ++ d ++ a.code ++ b.code)
  | .fmul d a b => some (0x5A#9 ++ d ++ a.code ++ b.code)
  | .ffma d a b => some (0x5B#9 ++ d ++ a.code ++ b.code)
  | .fmin d a b => some (0x5C#9 ++ d ++ a.code ++ b.code)
  | .fmax d a b => some (0x5D#9 ++ d ++ a.code ++ b.code)
  | .fcmp c g a b => some (0x5E#9 ++ c ++ g ++ a.code ++ b.code)
  | .fclass d a => some (0x5F#9 ++ d ++ a.code ++ 0#8)
  | .frnd d a => some (0x60#9 ++ d ++ a.code ++ 0#8)
  | .frcp d a => some (0x61#9 ++ d ++ a.code ++ 0#8)
  | .frsq d a => some (0x62#9 ++ d ++ a.code ++ 0#8)
  | .fsqrt d a => some (0x63#9 ++ d ++ a.code ++ 0#8)
  | .fexp2 d a => some (0x64#9 ++ d ++ a.code ++ 0#8)
  | .flog2 d a => some (0x65#9 ++ d ++ a.code ++ 0#8)
  | .ftanh d a => some (0x66#9 ++ d ++ a.code ++ 0#8)
  | .hadd2 d a b => some (0x68#9 ++ d ++ a.code ++ b.code)
  | .hmul2 d a b => some (0x69#9 ++ d ++ a.code ++ b.code)
  | .hfma2 d a b => some (0x6A#9 ++ d ++ a.code ++ b.code)
  | .cvt d a t j => some (0x6B#9 ++ d ++ a.code ++ 0#2 ++ j ++ t)
  | .cvtpk d a b => some (0x6C#9 ++ d ++ a.code ++ b.code)
  | .qswz d a pat => some (0x70#9 ++ d ++ a.code ++ pat)
  | .qbcast d a k => some (0x71#9 ++ d ++ a.code ++ 0#6 ++ k)
  | .qdx d a => some (0x72#9 ++ d ++ a.code ++ 0#8)
  | .qdy d a => some (0x73#9 ++ d ++ a.code ++ 0#8)
  | .vshfl d a b => some (0x74#9 ++ d ++ a.code ++ b.code)
  | .vballot d a n => some (0x75#9 ++ d ++ 0#1 ++ a.code ++ n)
  | .vreadl d a b => some (0x76#9 ++ d ++ 0#1 ++ a.code ++ b.code)
  | .vwritel d a b => some (0x77#9 ++ d ++ a.code ++ b.code)
  | .vrand d => some (0x78#9 ++ d ++ 0#8 ++ 0#8)
  | .pand g pa pb => some (0x79#9 ++ 0#4 ++ g ++ 0#4 ++ pa ++ 0#4 ++ pb)
  | .por g pa pb => some (0x7A#9 ++ 0#4 ++ g ++ 0#4 ++ pa ++ 0#4 ++ pb)
  | .pxor g pa pb => some (0x7B#9 ++ 0#4 ++ g ++ 0#4 ++ pa ++ 0#4 ++ pb)
  | .pnot g pa => some (0x7C#9 ++ 0#4 ++ g ++ 0#4 ++ pa ++ 0#8)
  | .pset g a => some (0x7D#9 ++ 0#4 ++ g ++ a.code ++ 0#8)
  | .kclr k => some (0x80#9 ++ 0#7 ++ 0#12 ++ k)
  | .kjoin kd ka kb => some (0x81#9 ++ 0#7 ++ 0#4 ++ kd ++ ka ++ kb)
  | .kfork kd ks => some (0x82#9 ++ 0#7 ++ 0#4 ++ kd ++ 0#4 ++ ks)
  | .kwait k => some (0x83#9 ++ 0#7 ++ 0#12 ++ k)
  | .fence => some (0x84#9 ++ 0#7 ++ 0#16)
  | .ksend a ks kr => some (0x85#9 ++ 0#6 ++ 1#1 ++ a.code ++ kr ++ ks)
  | .karr k => some (0x86#9 ++ 0#7 ++ 0#12 ++ k)
  | .kstat d k => some (0x87#9 ++ d ++ 0#1 ++ 0#8 ++ 0#4 ++ k)
  | .gbar n k => some (0x88#9 ++ 0#7 ++ 0#8 ++ k ++ 0#2 ++ n)
  | .gbarPhase k => some (0x89#9 ++ 0#7 ++ 0#8 ++ k ++ 0#4)
  | .binit a b => some (0x8A#9 ++ 0#6 ++ 1#1 ++ a.code ++ b.code)
  | .bexpect a b => some (0x8B#9 ++ 0#6 ++ 0#1 ++ a.code ++ b.code)
  | .barrive a k => some (0x8C#9 ++ 0#6 ++ 0#1 ++ a.code ++ 0#4 ++ k)
  | .bwait a b => some (0x8D#9 ++ 0#6 ++ 0#1 ++ a.code ++ b.code)
  | .btest d a b => some (0x8E#9 ++ d ++ 0#1 ++ a.code ++ b.code)
  | .yieldB d p a b => some (0x8F#9 ++ d ++ BitVec.ofBool p ++ a.code ++ b.code)
  | .vgive n => some (0x90#9 ++ 0#7 ++ n)
  | .vclaim n => some (0x91#9 ++ 0#7 ++ n)
  | .xgive n => some (0x92#9 ++ 0#7 ++ n)
  | .xclaim n => some (0x93#9 ++ 0#7 ++ n)
  | .xmovr v dir x imm n => some (0x94#9 ++ v ++ BitVec.ofBool dir ++ 0#1 ++ x ++ imm ++ 0#2 ++ n)
  | .xmovc v dir side x imm n => some (0x95#9 ++ v ++ BitVec.ofBool dir ++ BitVec.ofBool side ++ x ++ imm ++ 0#2 ++ n)
  | .ld d v b st p k => some (0x20#6 ++ d ++ v ++ b ++ BitVec.ofBool st ++ 0#1 ++ p ++ k)
  | .st d v b st p k => some (0x21#6 ++ d ++ v ++ b ++ BitVec.ofBool st ++ 0#1 ++ p ++ k)
  | .ldl d v b st p k => some (0x22#6 ++ d ++ v ++ b ++ BitVec.ofBool st ++ 0#1 ++ p ++ k)
  | .stl d v b st p k => some (0x23#6 ++ d ++ v ++ b ++ BitVec.ofBool st ++ 0#1 ++ p ++ k)
  | .ldline d v b st p k => some (0x24#6 ++ d ++ v ++ b ++ BitVec.ofBool st ++ 0#1 ++ p ++ k)
  | .stline d v b st p k => some (0x25#6 ++ d ++ v ++ b ++ BitVec.ofBool st ++ 0#1 ++ p ++ k)
  | .pref h v b p k => some (0x26#6 ++ h ++ v ++ b ++ 0#1 ++ 0#1 ++ p ++ k)
  | .sld d m b st p k => some (0x27#6 ++ 0#1 ++ d ++ 0#1 ++ m ++ b ++ BitVec.ofBool st ++ 0#1 ++ p ++ k)
  | .sst d m b st p k => some (0x28#6 ++ 0#1 ++ d ++ 0#1 ++ m ++ b ++ BitVec.ofBool st ++ 0#1 ++ p ++ k)
  | .launch v b k => some (0x29#6 ++ 0#7 ++ v ++ b ++ 1#1 ++ 0#1 ++ 0#4 ++ k)
  | .enq b k => some (0x2A#6 ++ 0#7 ++ 0#7 ++ b ++ 0#1 ++ 0#1 ++ 0#4 ++ k)
  | .atomAdd d v b st p k => some (0x2B#6 ++ d ++ v ++ b ++ BitVec.ofBool st ++ 0#1 ++ p ++ k)
  | .atomMin d v b st p k => some (0x2C#6 ++ d ++ v ++ b ++ BitVec.ofBool st ++ 0#1 ++ p ++ k)
  | .atomMax d v b st p k => some (0x2D#6 ++ d ++ v ++ b ++ BitVec.ofBool st ++ 0#1 ++ p ++ k)
  | .atomAnd d v b st p k => some (0x2E#6 ++ d ++ v ++ b ++ BitVec.ofBool st ++ 0#1 ++ p ++ k)
  | .atomOr d v b st p k => some (0x2F#6 ++ d ++ v ++ b ++ BitVec.ofBool st ++ 0#1 ++ p ++ k)
  | .atomXor d v b st p k => some (0x30#6 ++ d ++ v ++ b ++ BitVec.ofBool st ++ 0#1 ++ p ++ k)
  | .atomXchg d v b st p k => some (0x31#6 ++ d ++ v ++ b ++ BitVec.ofBool st ++ 0#1 ++ p ++ k)
  | .atomCas d v b st p k => some (0x32#6 ++ d ++ v ++ b ++ BitVec.ofBool st ++ 0#1 ++ p ++ k)
  | .atomInc d v b st p k => some (0x33#6 ++ d ++ v ++ b ++ BitVec.ofBool st ++ 0#1 ++ p ++ k)
  | .atomDec d v b st p k => some (0x34#6 ++ d ++ v ++ b ++ BitVec.ofBool st ++ 0#1 ++ p ++ k)
  | .atomFadd d v b st p k => some (0x35#6 ++ d ++ v ++ b ++ BitVec.ofBool st ++ 0#1 ++ p ++ k)
  | .mma x a b f k => some (0x1B0#9 ++ x ++ a.code ++ b.code ++ f ++ k)
  | .mmabAnd x a b f k => some (0x1B1#9 ++ x ++ a.code ++ b.code ++ f ++ k)
  | .mmabXor x a b f k => some (0x1B2#9 ++ x ++ a.code ++ b.code ++ f ++ k)
  | .xscale x f => some (0x1B3#9 ++ x ++ 0#5 ++ 0#5 ++ f ++ 0#4)
  | .xcvt x a i q fmt => some (0x1B4#9 ++ x ++ 0#1 ++ a ++ 0#1 ++ BitVec.ofBool i ++ q ++ 0#1 ++ fmt ++ 0#4)
  | .xzero x => some (0x1B5#9 ++ x ++ 0#5 ++ 0#5 ++ 0#5 ++ 0#4)
  | .tld x side loc f k => some (0x1B6#9 ++ x ++ 0#3 ++ BitVec.ofBool side ++ BitVec.ofBool loc ++ 0#5 ++ f ++ k)
  | .tst x side loc f k => some (0x1B7#9 ++ x ++ 0#3 ++ BitVec.ofBool side ++ BitVec.ofBool loc ++ 0#5 ++ f ++ k)
  | .sscan f k => some (0x1B8#9 ++ 0#4 ++ 0#5 ++ 0#5 ++ f ++ k)
  | .ssld f k => some (0x1B9#9 ++ 0#4 ++ 0#5 ++ 0#5 ++ f ++ k)
  | .ssst f k => some (0x1BA#9 ++ 0#4 ++ 0#5 ++ 0#5 ++ f ++ k)
  | .unassignedEncoding _ => none
  | .powerOn => none
  | .packageReset => none
  | .dieRelease _ _ => none
  | .hostPortTrained _ _ _ => none
  | .guylineLinkReady _ => none
  | .channelTrainComplete _ _ => none
  | .recoveryPortTimeout => none
  | .recoveryGo => none
  | .recoveryVerifyDone => none
  | .recoveryCommit => none
  | .hostConfigRequest _ => none
  | .hostBar2Write _ _ => none
  | .hostBar2Read _ _ => none
  | .getVersion => none
  | .getCapabilities => none
  | .negotiateAlgorithms _ => none
  | .getDigests => none
  | .getCertificate => none
  | .challenge _ => none
  | .getMeasurements _ => none
  | .keyExchange _ => none
  | .portFailover => none
  | .takeover => none
  | .hostWriteAck _ => none
  | .linkFailure _ => none
  | .moduleUnreachable _ => none
  | .fabricResponseTimeout _ => none
  | .reductionContribution _ _ _ _ => none
  | .reductionResult _ => none
  | .reductionTimeout _ => none
  | .redCfgWrite _ _ _ => none
  | .intlvWrite _ => none
  | .registerWrite _ _ => none
  | .ctxCmdNone => none
  | .ctxCreate _ _ => none
  | .ctxDestroy _ => none
  | .ctxDestroyComplete _ => none
  | .ctxCmdReserved => none
  | .monitorWake _ => none
  | .monitorPoll _ _ => none
  | .packetTake _ => none
  | .queueResume _ => none
  | .groupPlace _ _ _ => none
  | .coresidentGridPlace _ _ => none
  | .continuationPlace _ _ _ => none
  | .groupComplete => none
  | .phaseEnd => none
  | .phaseSpill => none
  | .suspendContext _ => none
  | .suspendDrained _ => none
  | .resumeContext _ => none
  | .preemptGrid _ _ _ => none
  | .graceExpiry => none
  | .fullSave => none
  | .xltCmdNone => none
  | .xltInvalidateRange _ _ => none
  | .xltInvalidateAll _ => none
  | .xltCmdReserved => none
  | .xltInvalidateComplete => none
  | .memMoveBlock _ _ _ _ => none
  | .homeSwitch _ _ => none
  | .homeSwitchAck _ _ _ => none
  | .memOfflineDie _ => none
  | .memOnlineDie _ => none
  | .memHealLine => none
  | .memCmdReserved => none
  | .computeDieLoss _ => none
  | .computeDieRestart _ => none
  | .vdieRemap _ _ => none
  | .mdieRemap _ _ => none
  | .thermalThrottle _ _ => none
  | .thermalRelease _ _ => none
  | .computeDieOvertemp _ => none
  | .memdieOvertemp _ _ => none
  | .coolantFault => none
  | .coolantRestored => none
  | .eccUncorrectable _ => none
  | .sliceReadRequest _ _ _ => none
  | .sliceOwnershipRequest _ _ _ => none
  | .invalidation _ _ _ => none
  | .invalidationAck _ _ => none
  | .forward _ _ => none
  | .engineRecall _ _ => none
  | .evictionNotice _ _ _ => none
  | .l1Writeback _ _ _ => none
  | .l2Eviction _ _ => none
  | .homeRead _ _ => none
  | .homeOwnership _ _ => none
  | .homeUpgrade _ _ => none
  | .homeCleanEviction _ _ => none
  | .homeWriteback _ _ => none
  | .proxyRequest _ _ _ _ => none
  | .pageWalkComplete _ _ _ _ => none
  | .pinRelease _ _ => none
  | .memberPerformed _ => none
  | .faultCopyPlaced => none
  | .deliveryApply => none
  | .remoteKsendDeliver _ => none
  | .ksendAckTimeout _ => none
  | .engineEntryIssue _ => none
  | .copyPerformed _ => none
  | .arrivalCounted _ => none
  | .swapEligible _ _ _ => none
  | .forcedSwap _ _ _ => none
  | .activeSetFill _ _ _ => none
  | .ejectThreadStart _ => none
  | .laneRejoin => none
  | .laneRecall _ => none
  | .rejoinSoftLimit => none
  | .rejoinHardLimit => none
  | .claimGrant => none
  | .claimlock _ => none
  | .loadDataReturn _ => none
  | .matrixBeatWrite _ => none
  | .tileFetchArrival _ => none
  | .stateSpaceComplete _ => none
  | .launchEnqueueComplete _ => none
  | .haltComplete => none
  | .powerRemoval => none
  | .hostPortDlDown _ => none

end Sys2Proof
end

