-- ==== Sys2Proof/Machine/Clause.lean ====
section
/-!
DEFINITION. Clauses and completion flags (13 R311-R320): header fields, which instructions are long-latency, and the
flag that a word's position assigns.
-/

namespace Sys2Proof.Machine

open Sys2Proof

/-! ## The header (Table 13-1) -/

def isHeader (w : Word) : Bool := bits w.toNat 31 26 == 0x3F
def headerWait (w : Word) : BitVec 12 := w.extractLsb' 14 12
def headerA (w : Word) : Nat := bits w.toNat 13 10
def headerB (w : Word) : Nat := bits w.toNat 9 6
/-- Number of instruction words. -/
def headerLen (w : Word) : Nat := bits w.toNat 5 2 + 1
def headerKind (w : Word) : Nat := bits w.toNat 1 0

/-- Words of the clause that the header covers, pc naming one of them: its number from 1. -/
def clauseIndex (c : Clause) (pc : Pc) : Nat := (pc - c.base).toNat / 4

/-- The pc lies in the clause's body. -/
def inClause (c : Clause) (pc : Pc) : Bool :=
  decide (1 ≤ clauseIndex c pc) && decide (clauseIndex c pc ≤ headerLen c.header)

/-! ## Long-latency instructions (Table 13-2) -/

/-- The instruction is assigned a completion flag. -/
def isLong : Instr → Bool
  | .ld .. => true
  | .ldl .. => true
  | .ldline .. => true
  | .sld .. => true
  | .atomAdd .. => true
  | .atomMin .. => true
  | .atomMax .. => true
  | .atomAnd .. => true
  | .atomOr .. => true
  | .atomXor .. => true
  | .atomXchg .. => true
  | .atomCas .. => true
  | .atomInc .. => true
  | .atomDec .. => true
  | .atomFadd .. => true
  | .launch .. => true
  | .mma .. => true
  | .mmabAnd .. => true
  | .mmabXor .. => true
  | .xscale .. => true
  | .xcvt .. => true
  | .tld .. => true
  | .tst .. => true
  | .sscan .. => true
  | .ssld .. => true
  | .ssst .. => true
  | _ => false

/-- A word of the body is long-latency. -/
def longWord (w : Word) : Bool :=
  match decode w with
  | .ok i => isLong i
  | .error _ => false

/-- The flag assigned to the long-latency word at pc: A to the first of the body, B to the later ones; 12 to 15 assign
nothing (R315). -/
def assignedFlag (s : State) : Option Nat :=
  match s.w.clause with
  | none => none
  | some c =>
    let f := if (c.body.take (clauseIndex c s.w.pc - 1)).any longWord then headerB c.header else headerA c.header
    if f < 12 then some f else none

/-- The count of a flag; it reads set while the count is not zero. -/
def flagCount (w : Wave) (f : Nat) : Nat := Tab.get 0 w.flag f

/-- An instruction assigned to a flag issues. -/
def raiseCount (w : Wave) (f : Option Nat) : Wave :=
  match f with
  | none => w
  | some f => { w with flag := Tab.put 0 w.flag f (flagCount w f + 1) }

/-- An instruction assigned to a flag reaches its release point. -/
def lowerCount (w : Wave) (f : Option Nat) : Wave :=
  match f with
  | none => w
  | some f => { w with flag := Tab.put 0 w.flag f (flagCount w f - 1) }

/-- Every flag named in a mask is clear. -/
def flagsClear (w : Wave) (m : BitVec 12) : Bool :=
  (List.range 12).all (fun i => !m.getLsbD i || flagCount w i == 0)

end Sys2Proof.Machine
end

