-- ==== Sys2Proof/Machine/Stack.lean ====
section
/-!
DEFINITION. The reconvergence stack with its spill area, reconvergence at a fetch, exits, and the recall of an ejected
lane (06 R150-R156, R164-R168; 04 R119).
-/

namespace Sys2Proof.Machine

open Sys2Proof

/-! ## Entries in the spill area (Table 6-1) -/

/-- Kind byte. -/
def EntryKind.code : EntryKind → Nat
  | .join => 1
  | .path => 2
  | .recall => 3

/-- The 32 bytes of an entry. -/
def entryBytes (e : Entry) : List Byte :=
  bytesOf 12 e.mask.toNat ++ bytesOf 7 e.pc.toNat ++ bytesOf 1 e.kind.code ++
    bytesOf 7 (match e.rpc with
      | some r => r.toNat
      | none => 2 ^ 56 - 1) ++
    bytesOf 1 (if e.kind = .join then e.live % 16 + (if e.eject then 16 else 0) else 0) ++ bytesOf 4 0

/-- The entry that 32 bytes hold; an entry altered in the area is resumed as altered (R164). A kind byte other than 1, 2 and 3 is taken as
that of a path entry, the model's choice (log 45). -/
def entryOf (bs : List Byte) : Entry :=
  let f (lo n : Nat) : Nat := numOf ((bs.drop lo).take n)
  { kind := if f 19 1 = 1 then .join else if f 19 1 = 3 then .recall else .path
    mask := BitVec.ofNat 96 (f 0 12)
    pc := BitVec.ofNat 56 (f 12 7)
    rpc := if f 20 7 = 2 ^ 56 - 1 then none else some (BitVec.ofNat 56 (f 20 7))
    live := f 27 1 % 16
    eject := bit (f 27 1) 4 }

/-- Byte address of batch b of the wave's spill area. -/
def batchAddr (w : Wave) (b : Nat) : Nat := (w.spill + 256 * b) % 2 ^ 56

/-- A fault of a spill or refill access: TRAP_ADDR names the area (Table 6-5). -/
def areaTrap (cause detail a : Nat) : Trap := { cause := cause, detail := detail, addr := a }

/-- Translate one batch of the area. -/
def batchPhys (s : State) (need : Need) (b : Nat) : Except Trap (List Nat) :=
  match physBytes s (xlate s need) (batchAddr s.w b) 256 with
  | .error f => .error (areaTrap causeXlate f.detail (batchAddr s.w b))
  | .ok ps =>
    match routeFault s ps with
    | some c => .error (areaTrap causeNoroute c (batchAddr s.w b))
    | none => .ok ps

/-- The lines of a batch at physical addresses, served as accesses of the wave with class 0 (07 R186); those mapped uncached at their
home (07 R194). -/
def areaServed (write : Bool) (b : Nat) (ps : List Nat) (s : State) : Option State :=
  agentServed write (uncachedLines s [batchAddr s.w b] 256) (fun _ => 0) ps s

/-- Of operations, oldest first, those that cannot complete: those that faulted, and those that wait for one of them; they are
issued again after TRET (R250). -/
def stuckOps (mine : List Op) : List Op :=
  mine.foldl (fun xs o => if o.fault.isSome || o.waits.any (fun i => xs.any (fun p => p.id == i)) then xs ++ [o] else xs) []

/-- No operation of the wave in flight reaches the addresses (10 R244), but for one that cannot complete, which performs nothing. -/
def noneReach (s : State) (ps : List Nat) : Bool :=
  let stuck := stuckOps (s.ops.filter (fun o => o.owner == s.w.handle))
  s.ops.all (fun o => o.owner != s.w.handle || stuck.any (fun q => q.id == o.id) ||
    o.accs.all (fun a => a.bytes.all (fun x => !ps.contains x)))

/-- Whether batches may be written and read now: every line of the area can be served, and no access that the wave has made of the area
is still in flight, so that same-address program order is kept (R164; 10 R244). -/
def areaReady (s : State) : Bool :=
  s.w.spill == 0 ||
    (List.range 4).all (fun b =>
      match batchPhys s .write b with
      | .error _ => true
      | .ok ps => (areaServed true b ps s).isSome && noneReach s ps)

/-- Whether the wave may push or pop now: a handler's own entries never reach the area (04 R119). -/
def areaFree (s : State) : Bool := s.w.trap.on || areaReady s

/-- Write a batch, oldest entry first. -/
def spillBatch (s : State) (b : Nat) (oldestFirst : List Entry) : Res := do
  let ps ← batchPhys s .write b
  let t := installAll s [batchAddr s.w b] 256
  .ok (memWrite ((areaServed true b ps t).getD t) (ps.zip (oldestFirst.flatMap entryBytes)))

/-- Read a batch back, oldest entry first, as the wave sees it. -/
def readBatch (s : State) (b : Nat) : Except Trap (List Entry) := do
  let ps ← batchPhys s .read b
  let v := ownView s
  match ps.find? (fun a => sectorDev v (a / 32) != 0) with
  | some a => .error { areaTrap causePoison (if sectorDev v (a / 32) = 0xFFFF then 0 else 1) (batchAddr s.w b) with
      bad := [a / 32] }
  | none =>
    let bs := ps.map (memByte v)
    .ok ((List.range 8).map (fun i => entryOf ((bs.drop (32 * i)).take 32)))

/-! ## The stack in force -/

/-- The stack in use: the handler's own in trap mode (R119), else the wave's; top first. -/
def stackNow (w : Wave) : List Entry := if w.trap.on then w.trap.stack else w.stack

/-- Replace the stack in use. -/
def setStack (s : State) (st : List Entry) : State :=
  if s.w.trap.on then { s with w := { s.w with trap := { s.w.trap with stack := st } } }
  else { s with w := { s.w with stack := st } }

/-- cur_rpc: the reconvergence address of the topmost join entry, which the entries above it carry (R150). -/
def curRpc (w : Wave) : Option Pc :=
  match stackNow w with
  | [] => none
  | e :: _ => e.rpc

/-- The topmost join entry, with the number of resident entries below it. -/
def topJoin (st : List Entry) : Option (Entry × Nat) :=
  match st with
  | [] => none
  | e :: rest => if e.kind = .join then some (e, rest.length) else topJoin rest

/-- The topmost join entry among the spilled batches, with the number of entries below it, or the fault of their read. -/
def joinInBatches (s : State) : Nat → Except Trap (Option (Entry × Nat))
  | 0 => .ok none
  | b + 1 => do
    let es ← readBatch s b
    match topJoin es.reverse with
    | some (e, below) => .ok (some (e, below + 8 * b))
    | none => joinInBatches s b

/-- The topmost join entry and the number of the wave's entries below it. -/
def findJoin (s : State) : Except Trap (Option (Entry × Nat)) :=
  match topJoin (stackNow s.w) with
  | some (e, below) => .ok (some (e, below + if s.w.trap.on then 0 else 8 * s.w.batches))
  | none => if s.w.trap.on then .ok none else joinInBatches s s.w.batches

/-- Push one entry; a seventeenth resident entry first spills the 8 oldest (R164, R165). A fifth entry in trap mode is
a fault inside the handler (R121). -/
def pushEntry (e : Entry) (s : State) : Res :=
  if s.w.trap.on then
    if s.w.trap.stack.length < 4 then .ok (setStack s (e :: s.w.trap.stack)) else .error (trapOf causeStackovf 0)
  else if s.w.stack.length < 16 then .ok (setStack s (e :: s.w.stack))
  else if s.w.spill = 0 ∨ 4 ≤ s.w.batches then .error (trapOf causeStackovf 0)
  else do
    let s1 ← spillBatch s s.w.batches (s.w.stack.drop 8).reverse
    .ok { s1 with w := { s1.w with stack := e :: s1.w.stack.take 8, batches := s1.w.batches + 1 } }

/-- Push entries in order. -/
def pushAll (es : List Entry) (s : State) : Res := es.foldlM (fun s e => pushEntry e s) s

/-- Pop the top entry; with the last resident entry popped and a batch spilled, the newest batch is read back (R164). -/
def popEntry (s : State) : Except Trap (Option Entry × State) :=
  match stackNow s.w with
  | [] => .ok (none, s)
  | e :: rest =>
    if rest = [] ∧ !s.w.trap.on ∧ s.w.batches ≠ 0 then do
      let es ← readBatch s (s.w.batches - 1)
      let ps ← batchPhys s .read (s.w.batches - 1)
      let t := installAll s [batchAddr s.w (s.w.batches - 1)] 256
      let s1 := (areaServed false (s.w.batches - 1) ps t).getD t
      .ok (some e, { s1 with w := { s1.w with stack := es.reverse, batches := s.w.batches - 1 } })
    else .ok (some e, setStack s rest)

/-! ## Ejected lanes -/

/-- Entries of the wave's own stack, resident and spilled. -/
def totalDepth (w : Wave) : Nat := w.stack.length + 8 * w.batches

/-- The lanes ejected under the join entry on top of the wave's stack. -/
def ejectedUnderTop (w : Wave) : List EjLane :=
  if w.trap.on then [] else w.ejected.filter (fun e => e.depth + 1 == totalDepth w)

/-- The lane waits at its join's address with its own flags clear (R166). -/
def laneArrived (e : EjLane) : Bool := e.pc == e.rpc && e.flag.isEmpty

/-- A lane's window written back to the wave: words of its live window and its predicate bits (R166, R168). -/
def writeBack (w : Wave) (e : EjLane) : Wave :=
  let vreg := (List.range (8 * e.live)).foldl (fun vr n =>
    Tab.put [] vr n (Tab.put 0 (Tab.get [] vr n) e.lane (Tab.get 0 e.win n))) w.vreg
  let pred := (List.range 8).foldl (fun ps g =>
    if g = 0 then ps
    else
      let m := Tab.get 0 ps g &&& ~~~(BitVec.twoPow 96 e.lane)
      Tab.put 0 ps g (if e.pred.getLsbD g then m ||| BitVec.twoPow 96 e.lane else m)) w.pred
  { w with vreg := vreg, pred := pred, ejected := w.ejected.filter (fun x => x.lane != e.lane) }

/-- The operation is an access that its agent has handed on: a weak store that waits for no key any more, so that it is not open
(10 R249). -/
def handedStore (s : State) (w : Wave) (o : Op) : Bool :=
  match o.kind with
  | .store .. => !o.strong && !o.once && o.fault.isNone && allPerformed s w o.scope o.waits
  | _ => false

/-- No instruction that the lane left in flight has still to complete: only weak stores that are handed on remain, which a rejoin or a
recall does not wait for (R162, R168). -/
def laneQuiet (s : State) (e : EjLane) : Bool :=
  s.ops.all (fun o => !(o.owner == s.w.handle && o.lane == some e.lane && o.rejoined.isNone) || handedStore s s.w o)

/-- Lanes come back to the wave with their windows; what they still have in flight comes before the wave's later accesses, and counts
in no flag (R162, R166, R168). -/
def collect (es : List EjLane) (s : State) : State :=
  { s with
    w := es.foldl writeBack s.w
    ops := s.ops.map (fun o =>
      if o.owner == s.w.handle && o.rejoined.isNone && es.any (fun e => o.lane == some e.lane) then
        { o with rejoined := some s.nextOp, flag := none }
      else o) }

/-! ## Reconvergence at a fetch (R155) -/

/-- Rejoin at the top join entry: collect its lanes, pop it, em from its mask less exited lanes. -/
def rejoin (s : State) : Res := do
  let s1 := collect (ejectedUnderTop s.w) s
  match ← popEntry s1 with
  | (some e, s2) => .ok (goto (setEm s2 (e.mask &&& liveLanes s2.w)) s2.w.pc)
  | (none, s2) => .ok s2

/-! ## Exit (R156) -/

/-- Remove lanes from an entry's mask. -/
def Entry.less (e : Entry) (m : LaneMask) : Entry := { e with mask := e.mask &&& ~~~m }

/-- Rewrite the entries of every spilled batch. -/
def mapBatches (f : Entry → Entry) (s : State) : Nat → Res
  | 0 => .ok s
  | b + 1 => do
    let s1 ← mapBatches f s b
    let es ← readBatch s1 b
    spillBatch s1 b (es.map f)

/-- Lanes leave every entry, resident and spilled. -/
def dropLanes (m : LaneMask) (s : State) : Res := do
  let s1 := setStack s ((stackNow s.w).map (·.less m))
  let s2 ← if s1.w.trap.on then .ok s1 else mapBatches (·.less m) s1 s1.w.batches
  .ok { s2 with w := { s2.w with gone := s2.w.gone ||| m } }

/-- Waves of the group in focus that have not executed EXIT. -/
def unexited (s : State) : Nat :=
  (if s.w.status = .exited then 0 else 1) + s.g.peers.countP (fun w => w.status != .exited)

/-- A generation of group barrier n in which every such wave has arrived ends (15 R392). -/
def settleBarrier (s : State) (n : Nat) : State :=
  if Tab.get 0 s.g.gbarArr n ≠ 0 ∧ unexited s ≤ Tab.get 0 s.g.gbarArr n then
    { s with g := { s.g with gbarArr := Tab.put 0 s.g.gbarArr n 0, gbarGen := Tab.put 0 s.g.gbarGen n (Tab.get 0 s.g.gbarGen n + 1) } }
  else s

/-- The wave has executed EXIT: it counts as arrived at every later generation of every group barrier (15 R392). -/
def exited (s : State) : State :=
  (List.range 4).foldl settleBarrier { s with w := { s.w with status := .exited } }

/-- The wave has executed EXIT: its stack is empty and no lane is ejected. -/
def waveDone (w : Wave) : Bool := w.stack.isEmpty && w.batches == 0 && w.ejected.isEmpty

/-- Pop while the mask holds no lane after EXIT, whatever pc is: entries with an empty mask are passed over; a join
with lanes ejected under it is met at its address, where a fetch waits for them (log 27). -/
def popAfterExit : Nat → State → Res
  | 0, s => .ok s
  | n + 1, s =>
    match stackNow s.w with
    | [] => .ok (exited s)
    | e :: _ =>
      if e.kind = .join ∧ !(ejectedUnderTop s.w).isEmpty then .ok (goto { s with w := { s.w with exitPop := true } } e.pc)
      else do
        match ← popEntry s with
        | (some e, s1) =>
          if e.mask &&& liveLanes s1.w = 0 then popAfterExit n s1 else .ok (goto (setEm s1 (e.mask &&& liveLanes s1.w)) e.pc)
        | (none, s1) => .ok s1

/-- Entries to be popped at most. -/
def popBound (w : Wave) : Nat := totalDepth w + 1

/-! ## Meeting cur_rpc (R155) -/

/-- After a rejoin that an EXIT brought about, popping goes on while the mask holds no lane. -/
def afterRejoin (exitPop : Bool) (s : State) : Res :=
  if exitPop ∧ em s = 0 then popAfterExit (popBound s.w) s else .ok s

/-- What a fetch at cur_rpc does: pop a path or recall entry, or rejoin, which waits for the lanes ejected under the
join. A path entry whose mask is empty is popped without running (R156). -/
def reconverge (s : State) : Res :=
  match stackNow s.w with
  | [] => .ok s
  | e :: _ =>
    if e.kind = .join then
      if (ejectedUnderTop s.w).all (fun x => laneArrived x && laneQuiet s x) then
        (rejoin s >>= afterRejoin s.w.exitPop).map (fun t => { t with w := { t.w with
          status := if t.w.status = .exited then .exited else .ready, rejoinSoft := false, exitPop := false } })
      else .ok { s with w := { s.w with status := .waiting .rejoin } }
    else do
      match ← popEntry s with
      | (some e, s1) => if e.mask = 0 then .ok s1 else .ok (goto (setEm s1 e.mask) e.pc)
      | (none, s1) => .ok s1

/-! ## Recall (R168) -/

/-- A fault of a recall's push is due at the wave's next instruction, and the lanes stay on their threads until TRET (Table 6-5). -/
def recallFault (ls : List EjLane) (t : Trap) (s : State) : State :=
  let u := t.bad.foldl poison s
  { u with w := { u.w with
    stackDue := some { cause := t.cause, addr := t.addr, detail := t.detail, slots := 0 }
    ejected := u.w.ejected.map (fun x => if ls.any (fun e => e.lane == x.lane) then { x with stuck := true } else x) } }

/-- All entries of the wave's stack, oldest first: the batches, then the resident ones. -/
def allEntries (s : State) : Nat → Except Trap (List Entry)
  | 0 => .ok s.w.stack.reverse
  | b + 1 => do
    let rest ← allEntries s b
    let es ← readBatch s (s.w.batches - (b + 1))
    .ok (es ++ rest)

/-- Lay a whole stack out again: resident entries the newest, batches of 8 below, as pushes would leave it. -/
def layOut (oldestFirst : List Entry) (s : State) : Res :=
  if oldestFirst.length ≤ 16 then .ok { s with w := { s.w with stack := oldestFirst.reverse, batches := 0 } }
  else
    let nb := (oldestFirst.length - 16 + 7) / 8
    if s.w.spill = 0 ∨ 4 < nb then .error (trapOf causeStackovf 0)
    else do
      let s1 ← (List.range nb).foldlM (fun s b => spillBatch s b ((oldestFirst.drop (8 * b)).take 8)) s
      .ok { s1 with w := { s1.w with stack := (oldestFirst.drop (8 * nb)).reverse, batches := nb } }

/-- Insert recall entries directly above the entry at a depth, served in the given order: the first is on top. -/
def insertRecalls (depth : Nat) (es : List Entry) (s : State) : Res := do
  let all ← allEntries s s.w.batches
  let s1 ← layOut (all.take (depth + 1) ++ es.reverse ++ all.drop (depth + 1)) s
  .ok { s1 with w := { s1.w with
    ejected := s1.w.ejected.map (fun x => if depth < x.depth then { x with depth := x.depth + es.length } else x) } }

/-- Lanes grouped by pc, in ascending order of their lowest lane (R168). -/
def groupByPc (ls : List EjLane) : List (Pc × LaneMask) :=
  let xs := (List.range 96).filterMap (fun l => ls.find? (fun e => e.lane == l))
  ((xs.map (·.pc)).eraseDups).map (fun p =>
    (p, (xs.filter (fun e => e.pc == p)).foldl (fun m e => m ||| BitVec.twoPow 96 e.lane) 0))

/-- Recall lanes that stand under one join entry: their windows come back and they enter the stack as recall entries
directly above the join (R168). -/
def recallUnder (depth : Nat) (ls : List EjLane) (s : State) : Res := do
  let es := (groupByPc ls).map (fun p =>
    ({ kind := .recall, mask := p.2, pc := p.1, rpc := (ls.head?.map (·.rpc)), live := 0, eject := false } : Entry))
  let s1 ← insertRecalls depth es s
  .ok (collect ls s1)

/-- Recall every ejected lane with a property, join by join from the top down. -/
def recallFrom (p : EjLane → Bool) : Nat → State → Res
  | 0, s => .ok s
  | d + 1, s =>
    let ls := s.w.ejected.filter (fun e => p e && e.depth == d)
    if ls.isEmpty then recallFrom p d s else recallUnder d ls s >>= recallFrom p d

/-- Recall every ejected lane with a property. -/
def recallWhere (p : EjLane → Bool) (s : State) : Res := recallFrom p (totalDepth s.w) s

end Sys2Proof.Machine
end

