-- ==== Sys2Proof/Machine/Keys.lean ====
section
/-!
DEFINITION. Operations in flight, tags and members, fault entries, and when an instruction is open (09 R222-R235;
10 R239, R248-R252).
-/

namespace Sys2Proof.Machine

open Sys2Proof

/-! ## Waves wherever they are -/

/-- A wave, resident or saved in a record. -/
def waveAnywhere (s : State) (h : BitVec 64) : Option Wave :=
  match findWave s h with
  | some w => some w
  | none => (s.records.flatMap (fun r => match r.saved with
      | some g => g.peers
      | none => [])).find? (fun w => w.handle == h)

/-- Change a wave, resident or saved. -/
def modWave (h : BitVec 64) (f : Wave → Wave) (s : State) : State :=
  mapWaves (fun w => if w.handle = h then f w else w) s

/-! ## Tags and members (R223, R224) -/

/-- The tag set of slot k. -/
def tagsOf (w : Wave) (k : Nat) : List Tag := if k = 0 then [] else Tab.get [] w.keys.tags k

/-- The tag of the open generation of slot k. -/
def openTag (w : Wave) (k : Nat) : Tag := { handle := w.handle, slot := k, gen := Tab.get 0 w.keys.gen k }

/-- An operation with a tag is not complete for the wave: it is in flight, or its fault copy is held (R223, R235). -/
def tagBusy (s : State) (w : Wave) (t : Tag) : Bool :=
  s.ops.any (fun o => o.tag == some t) || w.keys.heldFaults.any (fun h => h.tag == t)

/-- member(k): the operations that carry a tag of k's set and are not complete (R224). -/
def membersOf (s : State) (w : Wave) (k : Nat) : List Nat :=
  (s.ops.filter (fun o => match o.tag with
    | some t => (tagsOf w k).contains t
    | none => false)).map (·.id) ++
  (w.keys.heldFaults.filter (fun h => (tagsOf w k).contains h.tag)).map (·.op)

/-- Every operation the wave has issued and that is not complete, in every slot (R231). -/
def ownMembers (s : State) (w : Wave) : List Nat :=
  (s.ops.filter (fun o => match o.tag with
    | some t => t.handle == w.handle
    | none => false)).map (·.id) ++
  (w.keys.heldFaults.filter (fun h => h.tag.handle == w.handle)).map (·.op)

/-- Number of operations produced into slot k that are not complete: in flight, or their fault copy held (R222, R229). -/
def slotCount (s : State) (w : Wave) (k : Nat) : Nat :=
  s.ops.countP (fun o => match o.tag with
    | some t => t.handle == w.handle && t.slot == k
    | none => false) +
  w.keys.heldFaults.countP (fun h => h.tag.handle == w.handle && h.tag.slot == k)

/-! ## Fault entries (R235) -/

/-- The entry taints slot k. -/
def taints (e : FaultEntry) (k : Nat) : Bool := e.slots.getLsbD k

/-- The entry of lowest address in a list, the first of equals. -/
def lowestEntry : List FaultEntry → Option FaultEntry
  | [] => none
  | e :: es =>
    match lowestEntry es with
    | none => some e
    | some f => if f.addr < e.addr then some f else some e

/-- The entry due at a consume of key k, or at FENCE. -/
def dueEntry (w : Wave) (k : Option Nat) : Option FaultEntry :=
  match k with
  | none => lowestEntry w.keys.faults
  | some k => if k = 0 then none else lowestEntry (w.keys.faults.filter (fun e => taints e k))

/-- The entry that a consume of k takes: one that is due; or, while it waits on a member whose copy is held for want of
room, the oldest of the list (R235). -/
def entryToTake (w : Wave) (k : Option Nat) (ids : List Nat) : Option FaultEntry :=
  match dueEntry w k with
  | some e => some e
  | none => if w.keys.heldFaults.any (fun h => ids.contains h.op) then w.keys.faults.head? else none

/-- The trap that reports an entry (04 R117). -/
def entryTrap (e : FaultEntry) : Trap := { cause := e.cause, detail := e.detail, addr := e.addr, entry := some e }

/-- A delivery to slot k, not yet applied, holds the tag. -/
def delivered (w : Wave) (k : Nat) (t : Tag) : Bool := w.keys.queue.any (fun d => d.slot == k && d.tags.contains t)

/-- The slots of a wave that a tag taints: those whose set holds it, those to which a delivery with it is on its way, and slot 0 when it
was produced there (log 22). -/
def taintMask (w : Wave) (t : Tag) : BitVec 16 :=
  BitVec.ofNat 16 ((List.range 16).foldl (fun m k =>
    if (tagsOf w k).contains t || delivered w k t || (k == 0 && t.slot == 0 && t.handle == w.handle) then m + 2 ^ k else m) 0)

/-- The wave's key file holds the tag, its delivery queue too (Table 9-1), or the wave issued it. -/
def holdsTag (w : Wave) (t : Tag) : Bool :=
  t.handle == w.handle || (List.range 16).any (fun k => (tagsOf w k).contains t || delivered w k t)

/-- A tag leaves every set of a wave for which it is drained (R223). -/
def drainTag (busy : Bool) (t : Tag) (w : Wave) : Wave :=
  if busy || w.keys.heldFaults.any (fun h => h.tag == t) then w
  else
    { w with keys := { w.keys with
        tags := (List.range 16).foldl (fun ts k =>
          if (Tab.get [] ts k).contains t then Tab.put [] ts k ((Tab.get [] ts k).erase t) else ts) w.keys.tags } }

/-- Place a copy of a fault entry in a wave's list, or hold it while the list is full. -/
def placeCopy (id : Nat) (t : Tag) (e : FaultEntry) (w : Wave) : Wave :=
  if holdsTag w t then
    let c := { e with slots := taintMask w t }
    if w.keys.faults.length < 4 then { w with keys := { w.keys with faults := w.keys.faults ++ [c] } }
    else { w with keys := { w.keys with heldFaults := w.keys.heldFaults ++ [{ op := id, tag := t, entry := c }] } }
  else w

/-! ## Issue and completion -/

/-- The kind is the engine's or a key transfer, not an instruction that can be open (10 R249). -/
def neverOpen (o : Op) : Bool :=
  match o.kind with
  | .copy _ => true
  | .ksend .. => true
  | .arrive _ _ (some _) => true
  | .matrix .. => true
  | _ => false

/-- The members that an operation waits for are performed at a scope, as its wave sees it. -/
def waitsAt (s : State) (sc : Nat) (o : Op) : Bool := allPerformed s ((waveAnywhere s o.owner).getD {}) sc o.waits

/-- The consume of an operation is satisfied at its captured scope (R226). -/
def waitsDone (s : State) (o : Op) : Bool := waitsAt s o.scope o

/-- A store that acts once for the wave may still get no response from another module, a precise fault of it (10 R251). -/
def mayTimeOut (s : State) (o : Op) : Bool :=
  o.once && decide (o.done < 5) && o.accs.any (fun a => a.bytes.any (fun x => paModule x != s.fab.module))

/-- An instruction is open until it can no longer fault (10 R249). -/
def isOpen (s : State) (o : Op) : Bool :=
  if neverOpen o then false
  else
    match o.kind with
    | .load .. => true
    | .atomic .. => true
    | _ => (o.strong && decide (o.done ≤ o.scope)) || !waitsDone s o || mayTimeOut s o

/-- Operations of the agent that is executing: the wave, or its ejected lane. -/
def agentOps (s : State) : List Op := s.ops.filter (fun o => o.owner == s.w.handle && o.lane == s.lane && o.rejoined.isNone && !neverOpen o)

/-- Its open instructions. -/
def openOps (s : State) : List Op := (agentOps s).filter (isOpen s)

/-- Add a tag to slot k's set. -/
def joinTag (w : Wave) (k : Nat) : Wave :=
  if k = 0 || (tagsOf w k).contains (openTag w k) then w
  else { w with keys := { w.keys with tags := Tab.put [] w.keys.tags k (tagsOf w k ++ [openTag w k]) } }

/-- What an operation is when it issues; an access of helper lanes alone is no member (05 R132). -/
structure Issue where
  kind : OpKind
  produce : Nat
  consume : Nat
  waits : List Nat
  scope : Nat
  strong : Bool := false
  flag : Option Nat := none
  done : Nat := 0
  rd : List Reg := []
  wr : List Reg := []
  member : Bool := true
  late : Option FaultEntry := none
  uncached : List Nat := []
  cls : Tab Nat := []
  accs : List LaneAcc := []
  locAccs : List LaneAcc := []
  once : Bool := false

/-- The operation of an issue. -/
def opOf (s : State) (i : Issue) : Op :=
  { id := s.nextOp, owner := s.w.handle, lane := s.lane, pc := s.w.pc, kind := i.kind,
    tag := if i.member then some (openTag s.w i.produce) else none,
    consume := i.consume, waits := i.waits, scope := i.scope, strong := i.strong, flag := i.flag, done := i.done,
    rd := .g (bits s.w.mode.toNat 2 0) :: i.rd, wr := i.wr, fault := none, faultLanes := 0,
    late := i.late, uncached := i.uncached, cls := i.cls, accs := i.accs, die := s.g.die, core := s.g.core
    accepted := if i.done = 0 then none else some s.nextOp, locAccs := i.locAccs
    via := sentOver s (i.accs.flatMap (·.bytes)), since := laneSince s, once := i.once }

/-- Issue an operation: it joins its produce slot with the open tag, counts in its flag, and is in flight (R225, R227).
The agent then goes on, waiting first when the operation is strong and not yet performed at its scope (10 R248). -/
def issueOp (s : State) (i : Issue) : State :=
  let o := opOf s i
  let w := raiseCount (if i.member then joinTag s.w i.produce else s.w) i.flag
  let hold := i.strong && decide (i.done ≤ i.scope)
  { s with
    w := { w with status := if hold then .waiting (.strong o.id) else w.status }
    ops := s.ops ++ [o]
    nextOp := s.nextOp + 1 }

/-- Give back the flag count of an operation, to the ejected lane that issued it or to the wave. -/
def releaseFlag (o : Op) (s : State) : State :=
  match o.flag with
  | none => s
  | some f =>
    modWave o.owner (fun w =>
      match o.lane with
      | none => lowerCount w (some f)
      | some l => { w with ejected := w.ejected.map (fun e =>
          if e.lane = l then { e with flag := Tab.put 0 e.flag f (Tab.get 0 e.flag f - 1) } else e) }) s

/-- Remove an operation and drain its tag. -/
def removeOp (o : Op) (s : State) : State :=
  let s := { s with ops := s.ops.filter (fun p => p.id != o.id) }
  match o.tag with
  | none => s
  | some t => mapWaves (drainTag (s.ops.any (fun p => p.tag == some t)) t) s

/-- An operation is complete (R223). -/
def completeOp (o : Op) (s : State) : State := removeOp o (releaseFlag o s)

/-- The operation is performed at the scopes below n: a store is accepted with the first, and a flag that stands until the captured
scope is given back there (13 R316). -/
def setDone (o : Op) (n : Nat) (s : State) : State :=
  let free := decide (o.scope < n)
  let t := if free then releaseFlag o s else s
  { t with ops := t.ops.map (fun p => if p.id = o.id then
      { p with done := n, accepted := p.accepted.or (some s.nextOp), flag := if free then none else p.flag } else p) }

/-- Change an operation in flight. -/
def modOp (id : Nat) (f : Op → Op) (s : State) : State :=
  { s with ops := s.ops.map (fun p => if p.id = id then f p else p) }

/-- The lowest address that an operation names; 0 where it names none. -/
def opAddr (o : Op) : Nat :=
  match o.kind, o.accs with
  | .copy j, _ =>
    if j.srcLocal then (if j.dstLocal then 0 else j.dst) else if j.dstLocal then j.src else min j.src j.dst
  | _, [] => 0
  | _, a :: as => as.foldl (fun m x => min m x.va) a.va

/-- The operation with an id. -/
def findOp (s : State) (id : Nat) : Option Op := s.ops.find? (fun o => o.id == id)

/-! ## Faults of open instructions (10 R250) -/

/-- The entry that an open instruction still waiting on its consume key takes, once one is due or held. -/
def consumeFault (w : Wave) (s : State) (o : Op) : Option FaultEntry :=
  if o.consume = 0 || neverOpen o then none
  else if allPerformed s w o.scope o.waits then none
  else entryToTake w (some o.consume) o.waits

/-- Mark the operations of every wave whose consume meets a fault entry, before the member leaves flight. -/
def markConsumers (s0 s : State) : State :=
  { s with ops := s.ops.map (fun o =>
      if o.fault.isSome || o.consume = 0 || neverOpen o then o
      else
        match waveAnywhere s0 o.owner, waveAnywhere s o.owner with
        | some w0, some w =>
          if allPerformed s0 w0 o.scope o.waits then o
          else
            match entryToTake w (some o.consume) o.waits with
            | some e => { o with fault := some e }
            | none => o
        | _, _ => o) }

/-- A weak member faults: a copy of its entry goes to every wave whose keys hold its tag, and it leaves flight (R235). -/
def faultOp (o : Op) (e : FaultEntry) (s : State) : State :=
  match o.tag with
  | none => completeOp o s
  | some t => completeOp o (markConsumers s (mapWaves (placeCopy o.id t e) s))

/-- An operation completes, with the fault entry that it has still to report (R223; 10 R251). -/
def finishOp (o : Op) (s : State) : State :=
  match o.late with
  | none => completeOp o s
  | some e => faultOp o e s

/-- Oldest operation of a list. -/
def oldest : List Op → Option Op
  | [] => none
  | o :: os =>
    match oldest os with
    | none => some o
    | some p => if p.id < o.id then some p else some o

/-- Undo the operations that faulted while open: their joins leave no tag and their flags are given back (04 R117). -/
def undoFaulted (os : List Op) (s : State) : State := os.foldl (fun s o => completeOp o s) s

/-- The trap of a faulted open instruction: its own fault, or the entry due at its consume, at its address. -/
def opTrap (o : Op) (w : Wave) : Trap :=
  match o.fault with
  | none => trapOf causeIllop 0
  | some e =>
    if o.faultLanes ≠ 0 then { cause := e.cause, detail := e.detail, addr := e.addr, lanes := some o.faultLanes }
    else if w.keys.faults.contains e then entryTrap ((entryToTake w (some o.consume) o.waits).getD e)
    else { cause := e.cause, detail := e.detail, addr := e.addr }

/-- With a fault met at an open instruction and no other instruction of the agent open but those that wait for it, the wave takes the
trap at the oldest one (R250); an ejected lane is recalled there (06 R160). -/
def settle (s : State) : State :=
  let mine := agentOps s
  match oldest (mine.filter (fun o => o.fault.isSome)) with
  | none => s
  | some o =>
    if mine.any (fun p => isOpen s p && !(stuckOps mine).any (fun q => q.id == p.id)) then s
    else
      let s1 := undoFaulted (stuckOps mine) s
      if s.w.status = .halted ∨ s.w.status = .stopped then s1
      else takeTrap (opTrap o s.w) (goto { s1 with w := { s1.w with status := .ready } } o.pc)

end Sys2Proof.Machine
end

