-- ==== Sys2Proof/Machine/Issue.lean ====
section
/-!
DEFINITION. When a word may issue: the registers it reads and writes, replay safety, serial clauses, the limits of the
key file, and when a waiting wave may go on (13 R315-R319; 10 R249; 09 R229; 04 R105).
-/

namespace Sys2Proof.Machine

open Sys2Proof

/-! ## Registers of an instruction (13 R317, 10 R249) -/

/-- What an instruction reads and writes, and whether its kind is replay-safe. -/
structure Use where
  rd : List Reg
  wr : List Reg
  safe : Bool

def use (safe : Bool) (rd wr : List Reg) : Use := { rd := rd, wr := wr, safe := safe }

/-- sN, or its pair. -/
def sRegs (pair : Bool) (n : Nat) : List Reg := if pair then [.s n, .s (n + 1)] else [.s n]

/-- n vector registers from d on. -/
def vRegs (d n : Nat) : List Reg := (List.range n).map (fun i => .v (d + i))

/-- The registers of a source code. -/
def srcRegs (pair : Bool) : Src → List Reg
  | .v r => [.v r.toNat]
  | .s r => sRegs pair r.toNat
  | _ => []

/-- The registers of a base pair. -/
def baseRegs (b : BitVec 2) : List Reg := sRegs true (48 + 2 * b.toNat)

/-- The registers of an MMA source. -/
def xsrcRegs : XSrc → List Reg
  | .tile x => [.x x.toNat]
  | .stream b => baseRegs b
  | .resv _ => []

/-- The local offset that the pair of f names (16 R412). -/
def pairOffset (s : State) (f : BitVec 5) : Nat := (sget s (2 * f.toNat)).toNat % 2 ^ 19

/-- The scalar registers of the codebook that the format block of an MMA names, where B is L4 (11 R270). -/
def codebookRegs (s : State) (f : BitVec 5) : List Reg :=
  let v := (ownView s).g
  let off := pairOffset s f
  if (locByte v (off + 1)).toNat = 9 then (List.range 8).map (fun i => .s ((locByte v (off + 8)).toNat + i)) else []

/-- Registers that the data of an access takes under the captured type (15 R378). -/
def dataRegs (s : State) : Nat := if elemWidth (ty s) = 64 then 2 else 1

/-- Registers read and written, and the replay-safe kinds of R249. -/
def regUse (s : State) : Instr → Use
  | .sadd d p a b => use true (srcRegs p a ++ srcRegs p b) (sRegs p d.toNat)
  | .ssub d p a b => use true (srcRegs p a ++ srcRegs p b) (sRegs p d.toNat)
  | .smul d p a b => use true (srcRegs p a ++ srcRegs p b) (sRegs p d.toNat)
  | .smulh d p a b => use true (srcRegs p a ++ srcRegs p b) (sRegs p d.toNat)
  | .sdiv d p a b => use true (srcRegs p a ++ srcRegs p b) (sRegs p d.toNat)
  | .srem d p a b => use true (srcRegs p a ++ srcRegs p b) (sRegs p d.toNat)
  | .sand d p a b => use true (srcRegs p a ++ srcRegs p b) (sRegs p d.toNat)
  | .sor d p a b => use true (srcRegs p a ++ srcRegs p b) (sRegs p d.toNat)
  | .sxor d p a b => use true (srcRegs p a ++ srcRegs p b) (sRegs p d.toNat)
  | .sshl d p a b => use true (srcRegs p a ++ srcRegs p b) (sRegs p d.toNat)
  | .sshr d p a b => use true (srcRegs p a ++ srcRegs p b) (sRegs p d.toNat)
  | .ssar d p a b => use true (srcRegs p a ++ srcRegs p b) (sRegs p d.toNat)
  | .smin d p a b => use true (srcRegs p a ++ srcRegs p b) (sRegs p d.toNat)
  | .smax d p a b => use true (srcRegs p a ++ srcRegs p b) (sRegs p d.toNat)
  | .sbfe d p a b => use true (srcRegs p a ++ srcRegs p b) (sRegs p d.toNat)
  | .scmpEq d p a b => use true (srcRegs p a ++ srcRegs p b) (sRegs p d.toNat)
  | .scmpNe d p a b => use true (srcRegs p a ++ srcRegs p b) (sRegs p d.toNat)
  | .scmpLt d p a b => use true (srcRegs p a ++ srcRegs p b) (sRegs p d.toNat)
  | .scmpLe d p a b => use true (srcRegs p a ++ srcRegs p b) (sRegs p d.toNat)
  | .scmpLtu d p a b => use true (srcRegs p a ++ srcRegs p b) (sRegs p d.toNat)
  | .scmpLeu d p a b => use true (srcRegs p a ++ srcRegs p b) (sRegs p d.toNat)
  | .smad d p a b => use true (sRegs p d.toNat ++ srcRegs p a ++ srcRegs p b) (sRegs p d.toNat)
  | .sbfi d p a b => use true (sRegs p d.toNat ++ srcRegs p a ++ srcRegs p b) (sRegs p d.toNat)
  | .ssel d p a b => use true (sRegs p d.toNat ++ srcRegs p a ++ srcRegs p b) (sRegs p d.toNat)
  | .smov d p a => use true (srcRegs p a) (sRegs p d.toNat)
  | .snot d p a => use true (srcRegs p a) (sRegs p d.toNat)
  | .sclz d p a => use true (srcRegs p a) (sRegs p d.toNat)
  | .spopc d p a => use true (srcRegs p a) (sRegs p d.toNat)
  | .smovi d _ => use true [] [.s d.toNat]
  | .smovhi d _ => use true [.s d.toNat] [.s d.toNat]
  | .vadd d a b => use true (srcRegs false a ++ srcRegs false b) [.v d.toNat]
  | .vsub d a b => use true (srcRegs false a ++ srcRegs false b) [.v d.toNat]
  | .vmul d a b => use true (srcRegs false a ++ srcRegs false b) [.v d.toNat]
  | .vmulh d a b => use true (srcRegs false a ++ srcRegs false b) [.v d.toNat]
  | .vand d a b => use true (srcRegs false a ++ srcRegs false b) [.v d.toNat]
  | .vor d a b => use true (srcRegs false a ++ srcRegs false b) [.v d.toNat]
  | .vxor d a b => use true (srcRegs false a ++ srcRegs false b) [.v d.toNat]
  | .vshl d a b => use true (srcRegs false a ++ srcRegs false b) [.v d.toNat]
  | .vshr d a b => use true (srcRegs false a ++ srcRegs false b) [.v d.toNat]
  | .vsar d a b => use true (srcRegs false a ++ srcRegs false b) [.v d.toNat]
  | .vmin d a b => use true (srcRegs false a ++ srcRegs false b) [.v d.toNat]
  | .vmax d a b => use true (srcRegs false a ++ srcRegs false b) [.v d.toNat]
  | .vbfe d a b => use true (srcRegs false a ++ srcRegs false b) [.v d.toNat]
  | .vclmulLo d a b => use true (srcRegs false a ++ srcRegs false b) [.v d.toNat]
  | .vclmulHi d a b => use true (srcRegs false a ++ srcRegs false b) [.v d.toNat]
  | .fadd d a b => use true (srcRegs false a ++ srcRegs false b) [.v d.toNat]
  | .fsub d a b => use true (srcRegs false a ++ srcRegs false b) [.v d.toNat]
  | .fmul d a b => use true (srcRegs false a ++ srcRegs false b) [.v d.toNat]
  | .fmin d a b => use true (srcRegs false a ++ srcRegs false b) [.v d.toNat]
  | .fmax d a b => use true (srcRegs false a ++ srcRegs false b) [.v d.toNat]
  | .hadd2 d a b => use true (srcRegs false a ++ srcRegs false b) [.v d.toNat]
  | .hmul2 d a b => use true (srcRegs false a ++ srcRegs false b) [.v d.toNat]
  | .vshfl d a b => use true (srcRegs false a ++ srcRegs false b) [.v d.toNat]
  | .vmad d a b => use true (.v d.toNat :: srcRegs false a ++ srcRegs false b) [.v d.toNat]
  | .vshf d a b => use true (.v d.toNat :: srcRegs false a ++ srcRegs false b) [.v d.toNat]
  | .vsel d a b => use true (.v d.toNat :: srcRegs false a ++ srcRegs false b) [.v d.toNat]
  | .vbfi d a b => use true (.v d.toNat :: srcRegs false a ++ srcRegs false b) [.v d.toNat]
  | .vprmt d a b => use true (.v d.toNat :: srcRegs false a ++ srcRegs false b) [.v d.toNat]
  | .ffma d a b => use true (.v d.toNat :: srcRegs false a ++ srcRegs false b) [.v d.toNat]
  | .hfma2 d a b => use true (.v d.toNat :: srcRegs false a ++ srcRegs false b) [.v d.toNat]
  | .cvtpk d a b => use true (.v d.toNat :: srcRegs false a ++ srcRegs false b) [.v d.toNat]
  | .vnot d a => use true (srcRegs false a) [.v d.toNat]
  | .vabs d a => use true (srcRegs false a) [.v d.toNat]
  | .vneg d a => use true (srcRegs false a) [.v d.toNat]
  | .vclz d a => use true (srcRegs false a) [.v d.toNat]
  | .vpopc d a => use true (srcRegs false a) [.v d.toNat]
  | .vbrev d a => use true (srcRegs false a) [.v d.toNat]
  | .fclass d a => use true (srcRegs false a) [.v d.toNat]
  | .frnd d a => use true (srcRegs false a) [.v d.toNat]
  | .frcp d a => use true (srcRegs false a) [.v d.toNat]
  | .frsq d a => use true (srcRegs false a) [.v d.toNat]
  | .fsqrt d a => use true (srcRegs false a) [.v d.toNat]
  | .fexp2 d a => use true (srcRegs false a) [.v d.toNat]
  | .flog2 d a => use true (srcRegs false a) [.v d.toNat]
  | .ftanh d a => use true (srcRegs false a) [.v d.toNat]
  | .qdx d a => use true (srcRegs false a) [.v d.toNat]
  | .qdy d a => use true (srcRegs false a) [.v d.toNat]
  | .vaddc d a b => use true (.g 7 :: srcRegs false a ++ srcRegs false b) [.v d.toNat, .g 7]
  | .vcmp _ g a b => use true (srcRegs false a ++ srcRegs false b) [.g g.toNat]
  | .fcmp _ g a b => use true (srcRegs false a ++ srcRegs false b) [.g g.toNat]
  | .cvt d a _ _ => use true (srcRegs false a) [.v d.toNat]
  | .qswz d a _ => use true (srcRegs false a) [.v d.toNat]
  | .qbcast d a _ => use true (srcRegs false a) [.v d.toNat]
  | .vballot d a _ => use true (srcRegs false a) [.s d.toNat]
  | .vreadl d a b => use true (srcRegs false a ++ srcRegs false b) [.s d.toNat]
  | .vwritel d a b => use true (srcRegs false a ++ srcRegs false b) [.v d.toNat]
  | .vrand d => use false [] [.v d.toNat]
  | .pand g pa pb => use true [.g (pa.toNat % 8), .g (pb.toNat % 8)] [.g g.toNat]
  | .por g pa pb => use true [.g (pa.toNat % 8), .g (pb.toNat % 8)] [.g g.toNat]
  | .pxor g pa pb => use true [.g (pa.toNat % 8), .g (pb.toNat % 8)] [.g g.toNat]
  | .pnot g pa => use true [.g (pa.toNat % 8)] [.g g.toNat]
  | .pset g a => use true (srcRegs false a) [.g g.toNat]
  | .mode a b => use false (srcRegs false a ++ srcRegs false b) []
  | .br _ g _ => use false [.g g.toNat] []
  | .brsZ n _ => use false [.s n.toNat] []
  | .brsNz n _ => use false [.s n.toNat] []
  | .call n _ => use false [] (sRegs true n.toNat)
  | .ret a => use false (srcRegs true a) []
  | .jr a b => use false (srcRegs true a ++ srcRegs false b) []
  | .jrLink m a b => use false (srcRegs true a ++ srcRegs false b) (sRegs true m.toNat)
  | .jx d a => use false (sRegs true d.toNat ++ srcRegs false a) []
  | .sloop n _ => use false [.s n.toNat] [.s n.toNat]
  | .stime d p => use false [] (sRegs p d.toNat)
  | .sysr d _ => use false [] [.s d.toNat]
  | .sysw _ b => use false (srcRegs false b) []
  | .ksend a _ _ => use false (srcRegs true a) []
  | .kstat d _ => use false [] [.s d.toNat]
  | .binit a b => use false (srcRegs false a ++ srcRegs true b) []
  | .bexpect a b => use false (srcRegs false a ++ srcRegs false b) []
  | .bwait a b => use false (srcRegs false a ++ srcRegs false b) []
  | .barrive a _ => use false (srcRegs false a) []
  | .btest d a b => use false (srcRegs false a ++ srcRegs false b) [.s d.toNat]
  | .yieldB d p a b => use false ((if p then sRegs true d.toNat else []) ++ srcRegs false a ++ srcRegs false b) []
  | .xmovr v dir x _ n => if dir then use false [.v v.toNat, .s n.toNat] [.x x.toNat]
    else use false [.x x.toNat, .s n.toNat] [.v v.toNat]
  | .xmovc v dir _ x _ n => if dir then use false [.v v.toNat, .s n.toNat] [.x x.toNat]
    else use false [.x x.toNat, .s n.toNat] [.v v.toNat]
  | .ld d v b st _ _ => use (!st) (.v v.toNat :: baseRegs b) (vRegs d.toNat (dataRegs s))
  | .ldl d v b st _ _ => use (!st) (.v v.toNat :: baseRegs b) (vRegs d.toNat (dataRegs s))
  | .st d v b _ _ _ => use false (.v v.toNat :: baseRegs b ++ vRegs d.toNat (dataRegs s)) []
  | .stl d v b _ _ _ => use false (.v v.toNat :: baseRegs b ++ vRegs d.toNat (dataRegs s)) []
  | .ldline d v b st _ _ => use (!st) (.v v.toNat :: baseRegs b) (vRegs d.toNat 32)
  | .stline d v b _ _ _ => use false (.v v.toNat :: baseRegs b ++ vRegs d.toNat 32) []
  | .pref _ v b _ _ => use true (.v v.toNat :: baseRegs b) []
  | .sld d m b _ _ _ => use false (.s m.toNat :: baseRegs b) (sRegs (dataRegs s == 2) d.toNat)
  | .sst d m b _ _ _ => use false (.s m.toNat :: baseRegs b ++ sRegs (dataRegs s == 2) d.toNat) []
  | .launch v b _ => use false (.v v.toNat :: baseRegs b) []
  | .enq b _ => use false (baseRegs b) []
  | .atomAdd d v b _ _ _ => use false (.v v.toNat :: baseRegs b ++ vRegs d.toNat (dataRegs s)) (vRegs d.toNat (dataRegs s))
  | .atomMin d v b _ _ _ => use false (.v v.toNat :: baseRegs b ++ vRegs d.toNat (dataRegs s)) (vRegs d.toNat (dataRegs s))
  | .atomMax d v b _ _ _ => use false (.v v.toNat :: baseRegs b ++ vRegs d.toNat (dataRegs s)) (vRegs d.toNat (dataRegs s))
  | .atomAnd d v b _ _ _ => use false (.v v.toNat :: baseRegs b ++ vRegs d.toNat (dataRegs s)) (vRegs d.toNat (dataRegs s))
  | .atomOr d v b _ _ _ => use false (.v v.toNat :: baseRegs b ++ vRegs d.toNat (dataRegs s)) (vRegs d.toNat (dataRegs s))
  | .atomXor d v b _ _ _ => use false (.v v.toNat :: baseRegs b ++ vRegs d.toNat (dataRegs s)) (vRegs d.toNat (dataRegs s))
  | .atomXchg d v b _ _ _ => use false (.v v.toNat :: baseRegs b ++ vRegs d.toNat (dataRegs s)) (vRegs d.toNat (dataRegs s))
  | .atomCas d v b _ _ _ => use false (.v v.toNat :: baseRegs b ++ vRegs d.toNat (2 * dataRegs s)) (vRegs d.toNat (dataRegs s))
  | .atomInc d v b _ _ _ => use false (.v v.toNat :: baseRegs b ++ vRegs d.toNat (dataRegs s)) (vRegs d.toNat (dataRegs s))
  | .atomDec d v b _ _ _ => use false (.v v.toNat :: baseRegs b ++ vRegs d.toNat (dataRegs s)) (vRegs d.toNat (dataRegs s))
  | .atomFadd d v b _ _ _ => use false (.v v.toNat :: baseRegs b ++ vRegs d.toNat (dataRegs s)) (vRegs d.toNat (dataRegs s))
  | .mma x a b f _ => use false (.x x.toNat :: xsrcRegs a ++ xsrcRegs b ++ sRegs true (2 * f.toNat) ++ codebookRegs s f) [.x x.toNat]
  | .mmabAnd x a b f _ => use false (.x x.toNat :: xsrcRegs a ++ xsrcRegs b ++ sRegs true (2 * f.toNat) ++ codebookRegs s f) [.x x.toNat]
  | .mmabXor x a b f _ => use false (.x x.toNat :: xsrcRegs a ++ xsrcRegs b ++ sRegs true (2 * f.toNat) ++ codebookRegs s f) [.x x.toNat]
  | .xscale x f => use false (.x x.toNat :: sRegs true (2 * f.toNat)) [.x x.toNat]
  | .xcvt x a _ _ _ => use false [.x x.toNat, .x a.toNat] [.x x.toNat]
  | .xzero x => use false [] [.x x.toNat]
  | .tld x _ _ f _ => use false (.x x.toNat :: sRegs true (2 * f.toNat)) [.x x.toNat]
  | .tst x _ _ f _ => use false (.x x.toNat :: sRegs true (2 * f.toNat)) []
  | .sscan f _ => use false (sRegs true (2 * f.toNat)) []
  | .ssld f _ => use false (sRegs true (2 * f.toNat)) []
  | .ssst f _ => use false (sRegs true (2 * f.toNat)) []
  | _ => use false [] []

/-- A streamed source. -/
def streamed : XSrc → Bool
  | .stream _ => true
  | _ => false

/-- The key a member is produced into, for instructions that join (09 Table 9-2). -/
def produceOf : Instr → Option Nat
  | .ld _ _ _ _ p _ => some p.toNat
  | .st _ _ _ _ p _ => some p.toNat
  | .ldl _ _ _ _ p _ => some p.toNat
  | .stl _ _ _ _ p _ => some p.toNat
  | .ldline _ _ _ _ p _ => some p.toNat
  | .stline _ _ _ _ p _ => some p.toNat
  | .sld _ _ _ _ p _ => some p.toNat
  | .sst _ _ _ _ p _ => some p.toNat
  | .atomAdd _ _ _ _ p _ => some p.toNat
  | .atomMin _ _ _ _ p _ => some p.toNat
  | .atomMax _ _ _ _ p _ => some p.toNat
  | .atomAnd _ _ _ _ p _ => some p.toNat
  | .atomOr _ _ _ _ p _ => some p.toNat
  | .atomXor _ _ _ _ p _ => some p.toNat
  | .atomXchg _ _ _ _ p _ => some p.toNat
  | .atomCas _ _ _ _ p _ => some p.toNat
  | .atomInc _ _ _ _ p _ => some p.toNat
  | .atomDec _ _ _ _ p _ => some p.toNat
  | .atomFadd _ _ _ _ p _ => some p.toNat
  | .mma _ a b _ k => if streamed a || streamed b then some k.toNat else none
  | .mmabAnd _ a b _ k => if streamed a || streamed b then some k.toNat else none
  | .mmabXor _ a b _ k => if streamed a || streamed b then some k.toNat else none
  | .tld _ _ _ _ k => some k.toNat
  | .tst _ _ _ _ k => some k.toNat
  | .sscan _ k => some k.toNat
  | .ssld _ k => some k.toNat
  | .ssst _ k => some k.toNat
  | .launch _ _ _ => some 0
  | .ksend _ _ _ => some 0
  | _ => none

/-! ## Holding an instruction at issue -/

/-- Two sets of registers meet. -/
def overlap (a b : List Reg) : Bool := a.any (fun r => b.contains r)

/-- The mask registers. -/
def emRegs : List Reg := [.s 60, .s 61, .s 62]

/-- The wave-level instructions, which act and are checked whatever the mask (06 Table 6-7, 13 R329). -/
def waveLevel : Instr → Bool
  | .mode .. => true
  | .joinAt .. => true
  | .br .. => true
  | .jx .. => true
  | .brsZ .. => true
  | .brsNz .. => true
  | .jmp .. => true
  | .jr .. => true
  | .jrLink .. => true
  | .call .. => true
  | .ret .. => true
  | .sloop .. => true
  | .waitf .. => true
  | .gbar .. => true
  | .gbarPhase .. => true
  | .exit => true
  | .vgive .. => true
  | .vclaim .. => true
  | .xgive .. => true
  | .xclaim .. => true
  | _ => false

/-- Every operation in flight of the agent that is executing. -/
def ownOps (s : State) : List Op := s.ops.filter (fun o => o.owner == s.w.handle && o.lane == s.lane && o.rejoined.isNone)

/-- The register interlock: nothing in flight still has to write what the instruction reads or writes (R317). -/
def interlockFree (s : State) (u : Use) : Bool :=
  (ownOps s).all (fun o => !overlap o.wr u.rd && !overlap o.wr u.wr && !overlap o.wr emRegs)

/-- While an instruction is open only a replay-safe one issues (10 R249). One that writes a register that it reads itself is not: run
again it would not find its sources unchanged (R250; log 46). -/
def replaySafe (s : State) (u : Use) : Bool :=
  let opens := openOps s
  opens.isEmpty ||
    (u.safe && !overlap u.wr emRegs && !overlap u.wr (s.w.readsSince ++ u.rd) && opens.all (fun o => !overlap u.wr o.rd))

/-- A serial clause: every earlier instruction has written its results and is no longer open (R319). -/
def serialFree (s : State) : Bool :=
  match s.w.clause with
  | none => true
  | some c => headerKind c.header != 2 || (ownOps s).all (fun o => o.wr.isEmpty && !(!neverOpen o && isOpen s o))

/-- An instruction that counts in a flag does not raise its count to 64 (R315). -/
def flagRoom (s : State) (i : Instr) : Bool :=
  !isLong i || match assignedFlag s with
    | none => true
    | some f => decide (flagCount s.w f < 63)

/-- A wave may produce one more member into slot k, and its tag into the slot's set (09 R229). -/
def memberRoom (s : State) (w : Wave) (k : Nat) : Bool :=
  decide (slotCount s w k < 4096) &&
    (k == 0 || (tagsOf w k).contains (openTag w k) || decide ((tagsOf w k).length < 8))

/-- The instructions of produceOf that act by lanes: active lanes that are no helper lanes make them members (05 R132). -/
def laneMember : Instr → Bool
  | .sld .. => false
  | .sst .. => false
  | .ksend .. => false
  | .mma .. => false
  | .mmabAnd .. => false
  | .mmabXor .. => false
  | .tld .. => false
  | .tst .. => false
  | .sscan .. => false
  | .ssld .. => false
  | .ssst .. => false
  | _ => true

/-- Room for one more member of the slot, and for its tag (09 R229); what helper lanes alone do joins nothing. -/
def keyRoom (s : State) (i : Instr) : Bool :=
  match produceOf i with
  | none => true
  | some k => (if laneMember i then nonHelperMask s == 0 else !someNonHelper s) || memberRoom s s.w k

/-- A KJOIN has issued and waits for its union to shrink (09 R230). -/
def joining (w : Wave) : Bool :=
  match w.status with
  | .waiting (.join _) => true
  | _ => false

/-- The slots whose generation an instruction closes, once for each time (09 R230, R234). -/
def closes (s : State) : Instr → List Nat
  | .kclr k => [k.toNat]
  | .kfork kd ks => if kd = 0 then [] else [ks.toNat, kd.toNat]
  | .kjoin kd ka kb => if kd = 0 ∨ joining s.w then [] else [ka.toNat, kb.toNat, kd.toNat]
  | .ksend a ks kr => if ks ≠ 0 ∧ srcScalar s true a = s.w.name then [ks.toNat, kr.toNat] else [ks.toNat]
  | _ => []

/-- No generation to be opened is still in use (09 R229). -/
def generationFree (s : State) (i : Instr) : Bool :=
  let cs := (closes s i).filter (· != 0)
  cs.all (fun k => (List.range (cs.count k)).all (fun j =>
    !tagBusy s s.w { openTag s.w k with gen := (Tab.get 0 s.w.keys.gen k + 1 + j) % 4096 }))

/-- Tags of two slots together, each once, drained ones left out. -/
def unionTags (s : State) (w : Wave) (a b : List Tag) : List Tag := ((a ++ b).eraseDups).filter (tagBusy s w)

/-- The kind is a KSEND. -/
def isKsend (o : Op) : Bool :=
  match o.kind with
  | .ksend .. => true
  | _ => false

/-- The operation may still set astat or write a register. -/
def hasResults (o : Op) : Bool :=
  match o.kind with
  | .store .. => false
  | .copy _ => false
  | .ksend .. => false
  | .arrive .. => false
  | .launch _ => false
  | .enq .. => false
  | _ => true

/-- The registers numbered from lo up to hi. -/
def regRange (lo hi : Nat) (r : Nat → Reg) : List Reg := (List.range (hi - lo)).map (fun i => r (lo + i))

/-- No earlier instruction that reads or writes registers to be given is incomplete (05 R146). -/
def giveFree (s : State) (rs : List Reg) : Bool :=
  (ownOps s).all (fun o => !overlap o.wr rs && !overlap o.rd rs)

/-- The local offset of a barrier: bits [18:0], bits [3:0] taken as zero (15 R395). -/
def barrierOff (a : Nat) : Nat := alignDown (a % 2 ^ 19) 16

/-- Field of a barrier's 128 bits (10 Table 10-4). -/
def barField (g : Group) (off hi lo : Nat) : Nat := bits (locNum g off 16) hi lo

/-- Held arrivals of a core, those of its resident groups. -/
def heldCount (s : State) (die core : Nat) : Nat :=
  s.held.countP (fun h => h.die == die && h.core == core && (findGroup s h.group).isSome)

/-- A barrier's 16 bytes lie in the local memory of the group. -/
def barInside (s : State) (off : Nat) : Bool := decide (off + 16 ≤ s.g.desc.lsize)

/-- BARRIVE waits where it would need a 65th held arrival (15 R397); one out of range faults instead. -/
def barriveRoom (s : State) (off : Nat) : Bool :=
  !barInside s off || decide (heldCount s s.g.die s.g.core < 64) || barField s.g off 27 16 != 0

/-- The offset that the source of a barrier instruction names. -/
def barrierOf (s : State) (a : Src) : Nat := barrierOff (srcLane s (ty s) a 0).toNat

/-- No earlier plain store of the wave has still to reach the barrier that an instruction acts on (10 R244). -/
def barrierClear (s : State) (a : Src) : Bool := !storeDue s (barrierOf s a) 16

/-- A BARRIVE of the agent has its key satisfied and is not counted yet: for want of a place among the held arrivals its wave stalls
(15 R397). -/
def arrivalStalls (s : State) (o : Op) : Bool :=
  match o.kind with
  | .arrive _ _ none => waitsDone s o
  | _ => false

/-- The operation is an ENQ of a core that is still open. -/
def isEnq (die core : Nat) (o : Op) : Bool :=
  match o.kind with
  | .enq _ d c => d == die && c == core
  | _ => false

/-- Chains of a core's resident groups, with those about to start. -/
def chainCount (s : State) (die core : Nat) : Nat :=
  s.chains.countP (fun c => c.die == die && c.core == core && (findGroup s c.group).isSome) +
    s.ops.countP (fun o => isEnq die core o && resident s o.owner)

/-- Other limits: 16 incomplete deliveries of a wave (09 R234), 16 chains of a core (10 R255), 64 held arrivals (15 R397), SYSR of astat
after every earlier result (16 R432), and a barrier's object after earlier stores to it (10 R244). With helper lanes alone an instruction
that acts once for the wave does nothing, and meets none of them. -/
def otherRoom (s : State) : Instr → Bool
  | .ksend .. => !someNonHelper s || decide (s.ops.countP (fun o => o.owner == s.w.handle && isKsend o) < 16)
  | .enq .. => !someNonHelper s || decide (chainCount s s.g.die s.g.core < 16)
  | .binit a _ => !someNonHelper s || barrierClear s a
  | .bexpect a _ => !someNonHelper s || barrierClear s a
  | .barrive a _ => !someNonHelper s || (barrierClear s a && barriveRoom s (barrierOf s a))
  | .bwait a _ => !someNonHelper s || barrierClear s a
  | .btest _ a _ => !someNonHelper s || barrierClear s a
  | .yieldB _ _ a _ => !someNonHelper s || barrierClear s a
  | .vgive n => !someNonHelper s || (giveFree s (regRange (8 * (s.w.vblocks - n.toNat)) (8 * s.w.vblocks) .v) &&
      s.w.ejected.all (fun e => decide (e.live + n.toNat ≤ s.w.vblocks) || laneQuiet s e))
  | .xgive n => !someNonHelper s || giveFree s (regRange (s.w.tiles - n.toNat) s.w.tiles .x)
  | .sysr _ n => n != 2 || (ownOps s).all (fun o => !hasResults o)
  | _ => true

/-- The instruction may issue now. With an all-zero mask it takes its issue cycle and meets none of this (06 R172). -/
def canIssue (s : State) (i : Instr) : Bool :=
  (agentOps s).all (fun o => o.fault.isNone && !arrivalStalls s o) &&
    ((em s == 0 && !waveLevel i) ||
      (interlockFree s (regUse s i) && replaySafe s (regUse s i) && serialFree s && flagRoom s i && keyRoom s i &&
        generationFree s i && otherRoom s i))

/-- Record the registers read since the oldest open instruction issued (10 R249). -/
def noteReads (s : State) (i : Instr) : State :=
  { s with w := { s.w with readsSince := if (openOps s).isEmpty then [] else s.w.readsSince ++ (regUse s i).rd } }

/-! ## Waiting (04 R105; 09 R231; 10 R248, R261) -/

/-- The phase field of the barrier at a local offset. -/
def barrierPhase (g : Group) (off : Nat) : Nat := locNum g off 1 % 16

/-- What an agent waits for has come about. -/
def waitOver (s : State) : Wait → Bool
  | .flags m => flagsClear s.w m
  | .clauseFlags m => flagsClear s.w m
  | .members k sc ids => allPerformed s s.w sc ids || (entryToTake s.w k ids).isSome
  | .join u => decide ((u.filter (tagBusy s s.w)).length ≤ 8)
  | .arrival k => s.w.keys.arrival.getLsbD k
  | .strong id => s.ops.all (fun o => o.id != id || decide (o.scope < o.done))
  | .gbar n gen => Tab.get 0 s.g.gbarGen n != gen
  | .bwait off p => barrierPhase s.g off != p
  | .claim => !s.g.claims.any (fun c => c.wave == s.w.idx)
  | .rejoin => s.w.stackDue.isSome || (ejectedUnderTop s.w).all (fun x => laneArrived x && laneQuiet s x)
  | .interlock => (openOps s).isEmpty
  | .chain => true
  | .slot => true
  | .phaseEnd => false

/-- The agent can be stepped; while a full save of its group is due it issues nothing (04 R109). -/
def runnable (s : State) : Bool :=
  !s.g.saveDue && (agentOps s).all (fun o => o.fault.isNone) &&
    match s.w.status with
    | .ready => true
    | .waiting w => waitOver s w
    | _ => false

end Sys2Proof.Machine
end

