-- ==== Sys2Proof/Machine/Access.lean ====
section
/-!
DEFINITION. What memory accesses of the executing agent share: its own earlier stores, the translation of one access,
faults of several lanes, and reads made at issue (07 R192, R196; 01 R33; 10 R244; 04 R117, R458).
-/

namespace Sys2Proof.Machine

open Sys2Proof

/-! ## One access -/

/-- The fault of one access: trap cause, detail and address, and the address whose walk ended in it. -/
structure LFault where
  cause : Nat
  detail : Nat
  addr : Nat
  walked : Option Nat := none
deriving DecidableEq, Repr

/-- Physical addresses of the n bytes at a, or the fault of the access (R196, 02 R50). -/
def accessPhys (s : State) (need : Need) (a n : Nat) : Except LFault (List Nat) :=
  match physBytes s (xlate s need) a n with
  | .error f => .error { cause := causeXlate, detail := f.detail, addr := a % 2 ^ 56, walked := f.walked }
  | .ok ps =>
    match lowNoroute s ps with
    | some c => .error { cause := causeNoroute, detail := c, addr := a % 2 ^ 56 }
    | none => .ok ps

/-- The same for an access that is made at once, so that its response is missed at once too (02 R55). -/
def accessNow (s : State) (need : Need) (a n : Nat) : Except LFault (List Nat) :=
  match accessPhys s need a n with
  | .error f => .error f
  | .ok ps =>
    match routeFault s ps with
    | some c => .error { cause := causeNoroute, detail := c, addr := a % 2 ^ 56 }
    | none => .ok ps

/-- The n bytes at a local offset, or XLATE cause 6 (15 R377). -/
def localPlaces (s : State) (off n : Nat) : Except LFault (List Nat) :=
  if off + n ≤ s.g.desc.lsize then .ok ((List.range n).map (off + ·))
  else .error { cause := causeXlate, detail := 6, addr := off }

/-- The POISON cause of sectors, lowest first: 0 for a poison pattern, 1 for a mismatch (01 R33). -/
def poisonCause (devs : List (BitVec 16)) : Option Nat :=
  if devs.contains 0xFFFF then some 0 else if devs.any (· != 0) then some 1 else none

/-- The sectors of global addresses whose data leaves memory: region 2 reads as zero and has none. -/
def readSectors (ps : List Nat) : List Nat := ((ps.filter (fun a => paRegion a != 2)).map (· / 32)).eraseDups

/-- The byte that a load returns: zero in region 2 (02 R59). -/
def loadByte (s : State) (a : Nat) : Byte := if paRegion a = 2 then 0 else memByte s a

/-- The fault of a precise trap at the whole wave. -/
def LFault.trap (f : LFault) : Trap := { cause := f.cause, detail := f.detail, addr := f.addr, walks := f.walked.toList }

/-- A read of n bytes made at issue, seeing the wave's own stores: its value, or the trap. -/
def readNow (s : State) (a n : Nat) : Except Trap Nat :=
  match accessNow s .read a n with
  | .error f => .error f.trap
  | .ok ps =>
    let v := ownView s
    match poisonCause ((readSectors ps).map (sectorDev v)) with
    | some c => .error { cause := causePoison, detail := c, addr := a % 2 ^ 56,
                         bad := (readSectors ps).filter (fun x => sectorDev v x != 0) }
    | none => .ok (numOf (ps.map (loadByte v)))

/-- A read of host memory goes over the active port: with its link down the read stays outstanding until a port is up, and is made on
that one (02 Table 2-3). -/
def hostReadFree (s : State) (ps : List Nat) : Bool := activeUp s || ps.all (fun a => paRegion a != 1)

/-- What reads of n bytes at addresses, made at issue, leave in the TLBs and caches; where a line cannot be served yet the instruction
does not issue. -/
def nowReads (as : List Nat) (n : Nat) (s : State) : State :=
  let ps := as.flatMap (fun a => match accessPhys s .read a n with
    | .ok ps => ps
    | .error _ => [])
  let unc := uncachedLines s as n
  let cls := lineClasses s as n
  ((linesOf ps).filter cacheable).foldl
    (fun u l => servedOr (agentServed false unc (Tab.get 0 cls) (ps.filter (fun a => lineOf a == l))) u)
    (if hostReadFree s ps then installAll s as n else stall s)

/-- A read of n bytes of local memory made at issue. -/
def readLocal (s : State) (off n : Nat) : Except Trap Nat :=
  match localPlaces s off n with
  | .error f => .error f.trap
  | .ok ps =>
    let v := ownView s
    let secs := (ps.map (· / 32)).eraseDups
    match poisonCause (secs.map (locDev v.g)) with
    | some c => .error { cause := causePoison, detail := c, addr := off,
                         badLoc := secs.filter (fun x => locDev v.g x != 0) }
    | none => .ok (numOf (ps.map (locByte v.g)))

/-! ## Several lanes (R196, R458) -/

/-- The trap of the lanes that fault: the lowest lane's fault, concerning every lane with a fault of that trap cause
(log 23). -/
def lanesTrap : List (Nat × LFault) → Option Trap
  | [] => none
  | (l, f) :: rest =>
    some { cause := f.cause, detail := f.detail, addr := f.addr, walks := ((l, f) :: rest).filterMap (fun x => x.2.walked)
           lanes := some (((l, f) :: rest).foldl (fun m x => if x.2.cause = f.cause then m ||| BitVec.twoPow 96 x.1 else m) 0) }

/-- The faults of lanes whose accesses were translated, in ascending lane order. -/
def laneFaults {α : Type} (xs : List (Nat × Except LFault α)) : List (Nat × LFault) :=
  xs.filterMap (fun x => match x.2 with
    | .error f => some (x.1, f)
    | .ok _ => none)

/-- Go on, or raise the trap of the faulting lanes. -/
def lanesOk {α : Type} (xs : List (Nat × Except LFault α)) : Except Trap Unit :=
  match lanesTrap (laneFaults xs) with
  | some t => .error t
  | none => .ok ()

/-! ## Captured scope (05 R139) -/

/-- An instruction that uses mode.scope raises ILLOPND detail 4 for a reserved code (log 20). -/
def checkScope (s : State) : Except Trap Unit := check (decide (scope s ≤ 5)) (trapOf causeIllopnd 4)

/-! ## Going on after a wait -/

/-- The agent waits no longer. -/
def wake (s : State) : State := { s with w := { s.w with status := .ready } }

/-- The agent waits at this instruction. -/
def hold (s : State) (x : Wait) : State := { s with w := { s.w with status := .waiting x } }

end Sys2Proof.Machine
end

