-- ==== Sys2Proof/Machine/Diverge.lean ====
section
/-!
DEFINITION. Dividing a wave's lanes, and ejecting a side to the die's Bivouac threads (06 R153, R154, R157, R158;
05 R132; 14 R370, R371).
-/

namespace Sys2Proof.Machine

open Sys2Proof

/-- Threads of a die held by ejected lanes. -/
def threadsInUse (s : State) (die : Nat) : List Nat :=
  ((allGroups s).filter (fun g => g.die == die)).flatMap (fun g => g.peers.flatMap (fun w => w.ejected.map (·.thread)))

/-- The die's free Bivouac threads, core × 4 + thread, ascending: 16 cores of four threads (R158; 01 R7). -/
def freeThreads (s : State) (die : Nat) : List Nat :=
  (List.range 64).filter (fun t => !(threadsInUse s die).contains t)

/-- A side of a dividing branch: its target and its lanes. -/
structure Side where
  pc : Pc
  mask : LaneMask
deriving DecidableEq, Repr

/-- Add lanes to the side with a target. -/
def addSide (pc : Pc) (m : LaneMask) : List Side → List Side
  | [] => if m = 0 then [] else [{ pc := pc, mask := m }]
  | x :: xs => if x.pc = pc then { x with mask := x.mask ||| m } :: xs else x :: addSide pc m xs

/-- nh(s): its active non-helper lanes (R154). -/
def sideCount (s : State) (x : Side) : Nat := laneCount (x.mask &&& nonHelperMask s)

/-- low(s): its lowest active non-helper lane, or its lowest lane when it has none (R154, R370). -/
def sideLow (s : State) (x : Side) : Nat :=
  (lowLane (if x.mask &&& nonHelperMask s = 0 then x.mask else x.mask &&& nonHelperMask s)).getD 96

/-- Insert a side by ascending lowest lane. -/
def insSide (s : State) (x : Side) : List Side → List Side
  | [] => [x]
  | y :: ys => if sideLow s x < sideLow s y then x :: y :: ys else y :: insSide s x ys

/-- Sides by ascending lowest lane. -/
def sortSides (s : State) (xs : List Side) : List Side := xs.foldr (insSide s) []

/-- The side that is never ejected: the largest, and among equals the one of smallest lowest lane. -/
def keepSide (s : State) : List Side → Option Side
  | [] => none
  | x :: xs =>
    match keepSide s xs with
    | none => some x
    | some y => if sideCount s x < sideCount s y then some y else some x

/-- The helper lanes of a side: those whose quad's lowest non-helper active lane lies in it (05 R132). -/
def followers (s : State) (m : LaneMask) : LaneMask :=
  maskOf (fun l => lane (helperMask s) l &&
    match (List.range 4).find? (fun i => lane (nonHelperMask s) (l - l % 4 + i)) with
    | some i => lane m (l - l % 4 + i)
    | none => false)

/-- A lane as it is ejected (R157): its window, a snapshot of the scalar registers, its predicate bits and mode. -/
def ejectLane (s : State) (pc : Pc) (j : Entry) (depth l thread : Nat) : EjLane :=
  { lane := l, thread := thread, pc := pc, depth := depth, rpc := j.pc, live := j.live, mode := s.w.mode
    win := Tab.ofFn 0 (8 * j.live) (fun n => vget s n l)
    pred := BitVec.ofNat 8 ((List.range 8).foldl (fun m g => if lane (pget s g) l then m + 2 ^ g else m) 0)
    sreg := s.w.sreg, flag := [], clause := none, status := .ready, started := false, readsSince := []
    since := s.nextOp }

/-- Eject every lane of a side, the lowest lanes to the lowest free threads. -/
def ejectSide (s : State) (j : Entry) (depth : Nat) (x : Side) : State :=
  let es := ((lanesOf x.mask).zip (freeThreads s s.g.die)).map (fun p => ejectLane s x.pc j depth p.1 p.2)
  { s with w := { s.w with ejected := s.w.ejected ++ es } }

/-- Whether a side is ejected (R154). -/
def ejects (s : State) (keep : Option Side) (j : Entry) (x : Side) : Bool :=
  some x != keep && j.eject && !s.w.trap.on && decide (0 < sideCount s x) &&
    decide (sideCount s x ≤ ejectThreshold s) && decide (laneCount x.mask ≤ (freeThreads s s.g.die).length)

/-- Eject the candidates in ascending lowest lane; the sides that stay. s0 is the state whose masks rank the sides. -/
def ejectSides (s0 : State) (keep : Option Side) (j : Entry) (depth : Nat) : List Side → State → State × List Side
  | [], s => (s, [])
  | x :: xs, s =>
    if ejects s0 keep j x && decide (laneCount x.mask ≤ (freeThreads s s.g.die).length) then
      ejectSides s0 keep j depth xs (ejectSide s j depth x)
    else
      let r := ejectSides s0 keep j depth xs s
      (r.1, x :: r.2)

/-- Run the first side and push the others as path entries, the highest first (R154). -/
def runSides (s0 : State) (thru : Option Pc) (rpc : Option Pc) : List Side → State → Res
  | [], s => .ok s
  | x :: xs, s => do
    let full (y : Side) : LaneMask := y.mask ||| followers s0 y.mask
    let es := xs.reverse.map (fun y =>
      ({ kind := .path, mask := full y, pc := y.pc, rpc := rpc, live := 0, eject := false } : Entry))
    let s1 ← pushAll es s
    let s2 := setEm s1 (full x)
    .ok (if thru = some x.pc then advance s2 else goto s2 x.pc)

/-- The word at pc is the last of a terminal clause. -/
def endsTerminal (s : State) : Bool :=
  s.w.clause.any (fun c => headerKind c.header == 1 && !inClause c (s.w.pc + 4))

/-- Sides that fall through the end of a terminal clause and do not run at once have still to raise ILLOP (14 R375). -/
def noteFall (s0 : State) (thru : Option Pc) (xs : List Side) (s : State) : State :=
  if endsTerminal s0 then
    { s with w := { s.w with
        fell := s.w.fell ++ (xs.filter (fun x => thru == some x.pc)).map (fun x => (x.mask ||| followers s0 x.mask, x.pc)) } }
  else s

/-- Divide the wave's lanes among sides (R153, R154). thru is the target of lanes that fall through, which go on in
the clause. -/
def diverge (thru : Option Pc) (sides : List Side) (s : State) : Res :=
  match sides with
  | [] => .ok (advance s)
  | [x] => .ok (if thru = some x.pc then advance s else goto s x.pc)
  | _ => do
    let xs := sortSides s sides
    match ← findJoin s with
    | none => (runSides s thru (curRpc s.w) xs s).map (noteFall s thru (xs.drop 1))
    | some (j, depth) =>
      let r := ejectSides s (keepSide s xs) j depth xs s
      (runSides s thru j.rpc r.2 r.1).map (noteFall s thru (xs.filter (fun x => r.2.head? != some x)))

end Sys2Proof.Machine
end

