-- ==== Sys2Proof/Machine/Fetch.lean ====
section
/-!
DEFINITION. Fetching instructions: reading words of code, entering a clause, and the word that issues next (13 R311-R314,
R319, R320; 06 R155; 07 R180, R192; 01 R33).
-/

namespace Sys2Proof.Machine

open Sys2Proof

/-- A fetch fault of the word at a: XLATE, NOROUTE or POISON, with the sector that met it, and the address whose walk ended in it. -/
structure FetchFault where
  cause : Nat
  detail : Nat
  bad : List Nat
  walked : Option Nat := none
deriving DecidableEq, Repr

/-- Read one word of code (R180, R192): it needs x, and its check value is verified (01 R33). -/
def fetchWord (s : State) (a : Pc) : Except FetchFault Word :=
  match accessNow s .fetch a.toNat 4 with
  | .error f => .error { cause := f.cause, detail := f.detail, bad := [], walked := f.walked }
  | .ok ps =>
    let v := ownView s
    match poisonCause ((readSectors ps).map (sectorDev v)) with
    | some c => .error { cause := causePoison, detail := c, bad := (readSectors ps).filter (fun x => sectorDev v x != 0) }
    | none => .ok (BitVec.ofNat 32 (numOf (ps.map (loadByte v))))

/-- The trap of a fetch fault: TRAP_ADDR names the word (07 R196). -/
def FetchFault.trap (f : FetchFault) (a : Pc) : Trap :=
  { cause := f.cause, detail := f.detail, addr := a.toNat, bad := f.bad, walks := f.walked.toList }

/-- The words of a clause body that can be fetched, and the fault of the first that cannot (R320). -/
def fetchBody (s : State) (a : Pc) : Nat → List Word × Option (Nat × Nat)
  | 0 => ([], none)
  | n + 1 =>
    match fetchWord s a with
    | .error f => ([], some (f.cause, f.detail))
    | .ok w =>
      let r := fetchBody s (a + 4) n
      (w :: r.1, r.2)

/-- The clause a header heads, fetched whole (R180). -/
def fetchClause (s : State) (base : Pc) (h : Word) : Clause :=
  let r := fetchBody s (base + 4) (headerLen h)
  { base := base, header := h, body := r.1, missing := r.2 }

/-- Read back from an address for the header of the clause that covers it, at most 16 words (R313); a fault is that of the instruction
at the address (07 R196). -/
def readBack (s : State) (a : Pc) : Nat → Nat → Except Trap (Option (Pc × Word))
  | _, 0 => .ok none
  | i, n + 1 =>
    let b := a - BitVec.ofNat 56 (4 * i)
    match fetchWord s b with
    | .error f => .error (f.trap a)
    | .ok w =>
      if isHeader w then .ok (if i ≤ headerLen w then some (b, w) else none) else readBack s a (i + 1) n

/-- Where code entered at a begins: at its header, or inside the clause of one before it; none where no clause covers
a (R313). -/
def entryPoint (s : State) (a : Pc) : Except Trap (Option (Pc × Word)) :=
  match fetchWord s a with
  | .error f => .error (f.trap a)
  | .ok w => if isHeader w then .ok (some (a, w)) else readBack s a 1 16

/-- The words of a clause fill the caches as loads of its core, or of the L2 for a Bivouac core (R180); none where one cannot be served
yet. -/
def fetchFill (as : List Nat) (s : State) : Option State :=
  let ps := as.filterMap (fun a => match lookup s s.g.die s.g.ctx a (agentTlb s) with
    | .ok e => some (e.phys s a)
    | .error _ => none)
  let classes := lineClasses s as 4
  if !hostReadFree s ps then none
  else agentServed false (uncachedLines s as 4) (Tab.get 0 classes) ps s

/-- The addresses of the words of a clause that are fetched. -/
def clauseWords (b : Pc) (c : Clause) : List Nat := (List.range (c.body.length + 1)).map (fun i => (b.toNat + 4 * i) % 2 ^ 56)

/-- The clause that code entered at pc would fetch can be served now. -/
def fetchFree (s : State) : Bool :=
  match entryPoint s s.w.pc with
  | .ok (some (b, h)) => (fetchFill (clauseWords b (fetchClause s b h)) (installAll s (clauseWords b (fetchClause s b h)) 4)).isSome
  | _ => true

/-- Enter code at pc (R313, R314, R319): the clause is fetched; a reserved kind or no clause raises ILLOP; with a named
flag set the agent waits and nothing of the clause has issued. -/
def enter (s : State) : Res := do
  match ← entryPoint s s.w.pc with
  | none => .error (trapOf causeIllop 2)
  | some (b, h) =>
    if headerKind h = 3 then .error (trapOf causeIllop 3)
    else if flagsClear s.w (headerWait h) then
      let c := fetchClause s b h
      let t := installAll s (clauseWords b c) 4
      let s1 := (fetchFill (clauseWords b c) t).getD t
      .ok { s1 with w := { s1.w with clause := some c, pc := if b = s.w.pc then b + 4 else s.w.pc, status := .ready } }
    else .ok (hold s (.clauseFlags (headerWait h)))

/-- Fall through past a clause's last word (R313, R319): the clause was not terminal and a header follows. -/
def fallThrough (s : State) (c : Clause) : Except Trap Unit :=
  if headerKind c.header = 1 then .error (trapOf causeIllop 2)
  else
    match fetchWord s s.w.pc with
    | .error f => .error (f.trap s.w.pc)
    | .ok w => if isHeader w then .ok () else .error (trapOf causeIllop 2)

/-- The sectors that a fetch of the word at a finds to mismatch, and the address whose walk ends in a fault. -/
def fetchBad (s : State) (a : Pc) : List Nat × Option Nat :=
  match fetchWord s a with
  | .error f => (f.bad, f.walked)
  | .ok _ => ([], none)

/-- The word at pc of the clause that runs, or the fault of one that could not be fetched. -/
def wordAt (s : State) (c : Clause) : Except Trap Word :=
  match c.body[clauseIndex c s.w.pc - 1]? with
  | some w => .ok w
  | none =>
    match c.missing with
    | some (cause, detail) =>
      .error { cause := cause, detail := detail, addr := s.w.pc.toNat
               bad := if cause = causePoison then (fetchBad s s.w.pc).1 else []
               walks := if cause = causeXlate then (fetchBad s s.w.pc).2.toList else [] }
    | none => .error (trapOf causeIllop 2)

/-- The clause in which pc lies, if it is being run. -/
def running (s : State) : Option Clause :=
  match s.w.clause with
  | some c => if inClause c s.w.pc then some c else none
  | none => none

/-- Every active lane has fallen out of a terminal clause to pc, as a side that waited, or on a Bivouac core (R313, R329). -/
def fellDue (s : State) : Bool :=
  let m := (s.w.fell.filter (fun x => x.2 == s.w.pc)).foldl (fun m x => m ||| x.1) 0
  s.w.clause.isNone && m != 0 && em s &&& ~~~m == 0

/-- The active lanes have taken what was due. -/
def fellTaken (s : State) : State :=
  { s with w := { s.w with
      fell := (s.w.fell.map (fun x => (x.1 &&& ~~~(em s), x.2))).filter (fun x => x.1 != 0) } }

/-- Code must be entered: no clause runs, or the one that ran has been left by falling through. -/
def approach (s : State) : Res := do
  if fellDue s then .error (trapOf causeIllop 2)
  match s.w.clause with
  | some c => fallThrough s c
  | none => pure ()
  enter s

/-- The instruction a word stands for: one of the table's, or an encoding that is none (R328). -/
def instrOf (w : Word) : Instr :=
  match decode w with
  | .ok i => i
  | .error _ => .unassignedEncoding w

end Sys2Proof.Machine
end

