-- ==== Sys2Proof/Machine/Place.lean ====
section
/-!
DEFINITION. A program placed by hand: a resident wave about to run one word (log 10). It stands for the host's writes of
code, context and queue and the placement of a group, which the events of 02, 03 and 04 model.
-/

namespace Sys2Proof.Machine

open Sys2Proof

/-- The clause header placed before the word: one word, no flags, ordinary (13 Table 13-1). -/
def placedHeader : Word := 0xFC003FC0

/-- Where the header stands, virtual and region 0 offset alike. -/
def placedAt : Nat := 0x10000

/-- A wave with every lane active, 16 blocks and 16 tiles, at the header. -/
def placedWave : Wave :=
  { status := .ready, pc := BitVec.ofNat 56 placedAt, vblocks := 16, tiles := 16
    sreg := [(60, 0xFFFFFFFF), (61, 0xFFFFFFFF), (62, 0xFFFFFFFF)] }

/-- Its group: one wave and the whole local memory of a core. -/
def placedGroup : Group := { desc := { waves := 1, lsize := 524288 } }

/-- The translation of its code page. -/
def placedPage (s : State) : TlbEntry :=
  { ctx := 0, va := placedAt, size := 0, pa := ownPa s placedAt, cls := 0, unc := false, x := true, w := false, rd := true }

/-- The state with the wave in focus and the word after a header at its pc. -/
def placeWord (s : State) (w : Word) : State :=
  let t := memWrite s (cellsAt (ownPa s placedAt) (bytesOf 4 placedHeader.toNat ++ bytesOf 4 w.toNat ++ bytesOf 24 0))
  { t with
    w := placedWave, g := placedGroup, lane := none, inputs := []
    ops := s.ops.filter (fun o => o.owner != 0)
    pkg := { s.pkg with power := true, gatedC := 0 }
    slots := { die := 0, core := 0, slot := 0, active := [0], pending := [], age := [0] } ::
      s.slots.filter (fun x => !(x.die == 0 && x.core == 0 && x.slot == 0))
    xlt := { s.xlt with core := Tab.put [] s.xlt.core 0 (placedPage s :: Tab.get [] s.xlt.core 0) } }

end Sys2Proof.Machine
end

