-- ==== Sys2Proof/Machine/Memory.lean ====
section
/-!
DEFINITION. Issue of the load, store and prefetch instructions (15 R376-R385; 10 R248, R249, R251; 09 R225, R226).
-/

namespace Sys2Proof.Machine

open Sys2Proof

/-! ## Sizes, addresses and checks (R377, R378, R381) -/

/-- Bytes of an access under a type (05 R138). -/
def accessSize (t : Nat) : Nat :=
  match t with
  | 0x2 => 8 | 0x3 => 8
  | 0x5 => 2 | 0x6 => 2
  | 0x8 => 1 | 0x9 => 1
  | _ => 4

/-- A load of 1 or 2 bytes sign-extends for I8 and I16. -/
def signedLoad (t : Nat) : Bool := t == 0x6 || t == 0x9

/-- addr(l): base + v[M][l] (R377). -/
def laneAddr (s : State) (b : BitVec 2) (v l : Nat) : Nat := ((baseOf s b).toNat + (vget s v l).toNat) % 2 ^ 64

/-- laddr(l): a 32-bit local offset (R377). -/
def laneLocal (s : State) (b : BitVec 2) (v l : Nat) : Nat := ((baseOf s b).toNat + (vget s v l).toNat) % 2 ^ 32

/-- saddr() (R377). -/
def scalarAddr (s : State) (b : BitVec 2) (m : Nat) : Nat := ((baseOf s b).toNat + (sget s m).toNat) % 2 ^ 64

/-- Checks of a typed format M word: register number for 8-byte accesses, the type, the registers held, and the scope
(R329, R378, R381; 05 R139). -/
def checkM (s : State) (d : Nat) (held : List Nat) : Except Trap Unit := do
  check (accessSize (ty s) != 8 || d % 2 == 0) (trapOf causeIllop 1)
  check (ty s != 7) (trapOf causeIllopnd 4)
  check (held.all (vHeld s)) (trapOf causeIllopnd 1)
  checkScope s

/-- The data registers of an access of n bytes. -/
def dataList (d n : Nat) : List Nat := if n = 8 then [d, d + 1] else [d]

/-- The members that a consume key holds at issue, after any fault entry already due is taken (09 R226, R235). -/
def consumeAt (s : State) (k : Nat) : Except Trap (List Nat) :=
  let ids := membersOf s s.w k
  match entryToTake s.w (some k) ids with
  | some e => if k = 0 then .ok ids else .error (entryTrap e)
  | none => .ok ids

/-! ## Loads (R382-R384) -/

/-- One lane's access, translated: a helper lane's fault leaves it with no byte. -/
def loadAcc (helper : Bool) (l a : Nat) (r : Except LFault (List Nat)) : Nat × Except LFault LaneAcc :=
  match r with
  | .ok bs => (l, .ok { lane := l, va := a % 2 ^ 56, bytes := bs })
  | .error f => (l, if helper then .ok { lane := l, va := a % 2 ^ 56, bytes := [] } else .error f)

/-- The accesses that translated. -/
def okAccs (xs : List (Nat × Except LFault LaneAcc)) : List LaneAcc :=
  xs.filterMap (fun x => match x.2 with
    | .ok a => some a
    | .error _ => none)

/-- Issue of a load: u gives its registers, accs its lanes' accesses, member whether a lane that is no helper acts. -/
def issueLoad (s : State) (u : Use) (loc : Bool) (size : Nat) (signed : Bool) (dst : LoadDst)
    (xs : List (Nat × Except LFault LaneAcc)) (scalar member strong : Bool) (p k : Nat) : Res := do
  let ids ← consumeAt s k
  match lanesTrap (laneFaults xs) with
  | some t => .error (if scalar then { t with lanes := none } else t)
  | none =>
    let accs := okAccs xs
    let s1 := if loc then s else installAll s (accs.map (·.va)) size
    .ok (advance (issueOp s1
      { kind := .load loc size signed dst accs, produce := p, consume := k, waits := ids, scope := scope s,
        strong := strong, flag := assignedFlag s, rd := u.rd, wr := u.wr, member := member,
        uncached := if loc then [] else uncachedLines s (accs.map (·.va)) size
        cls := if loc then [] else lineClasses s (accs.map (·.va)) size
        accs := if loc then [] else accs, once := scalar }))

/-- The accesses of a per-lane load: every active lane, helpers among them (R379). -/
def loadLanes (s : State) (f : Nat → Nat) (tr : Nat → Except LFault (List Nat)) : List (Nat × Except LFault LaneAcc) :=
  (lanesOf (activeMask s)).map (fun l => loadAcc (lane (helperMask s) l) l (f l) (tr (f l)))

/-- A per-lane load with at least one active lane. -/
def laneLoad (s : State) (u : Use) (loc : Bool) (size : Nat) (signed : Bool) (dst : LoadDst) (f : Nat → Nat)
    (st : Bool) (p k : Nat) : Res :=
  if activeMask s = 0 then .ok (advance s)
  else
    let tr (a : Nat) := if loc then localPlaces s a size else accessPhys s .read a size
    issueLoad s u loc size signed dst (loadLanes s f tr) false (nonHelperMask s != 0) st p k

/-- LD (R382). -/
def execLd (d v : BitVec 7) (b : BitVec 2) (st : Bool) (p k : BitVec 4) (s : State) : Out :=
  if em s = 0 then .next (advance s)
  else commit s (do
    let n := accessSize (ty s)
    checkM s d.toNat (v.toNat :: dataList d.toNat n)
    laneLoad s (regUse s (.ld d v b st p k)) false n (signedLoad (ty s)) (.vec d.toNat) (laneAddr s b v.toNat) st p.toNat k.toNat)

/-- LDL: local, aligned down to the access size (R377, R382). -/
def execLdl (d v : BitVec 7) (b : BitVec 2) (st : Bool) (p k : BitVec 4) (s : State) : Out :=
  if em s = 0 then .next (advance s)
  else commit s (do
    let n := accessSize (ty s)
    checkM s d.toNat (v.toNat :: dataList d.toNat n)
    laneLoad s (regUse s (.ldl d v b st p k)) true n (signedLoad (ty s)) (.vec d.toNat)
      (fun l => alignDown (laneLocal s b v.toNat l) n) st p.toNat k.toNat)

/-- The 32 registers of a line. -/
def lineRegs (d : Nat) : List Nat := (List.range 32).map (d + ·)

/-- Checks of LDLINE and STLINE (R384). -/
def checkLine (s : State) (d v : Nat) : Except Trap Unit := do
  check (d % 8 == 0 && decide (d ≤ 96)) (trapOf causeIllop 1)
  check ((v :: lineRegs d).all (vHeld s)) (trapOf causeIllopnd 1)
  checkScope s

/-- LDLINE: one 128-byte line for each lane (R384). -/
def execLdline (d v : BitVec 7) (b : BitVec 2) (st : Bool) (p k : BitVec 4) (s : State) : Out :=
  if em s = 0 then .next (advance s)
  else commit s (do
    checkLine s d.toNat v.toNat
    laneLoad s (regUse s (.ldline d v b st p k)) false 128 false (.line d.toNat)
      (fun l => alignDown (laneAddr s b v.toNat l) 128) st p.toNat k.toNat)

/-- SLD: once for the wave (R379, R383). -/
def execSld (d m : BitVec 6) (b : BitVec 2) (st : Bool) (p k : BitVec 4) (s : State) : Out :=
  if em s = 0 then .next (advance s)
  else commit s (do
    let n := accessSize (ty s)
    checkM s d.toNat []
    if someNonHelper s then
      let a := scalarAddr s b m.toNat
      issueLoad s (regUse s (.sld d m b st p k)) false n (signedLoad (ty s)) (.scal d.toNat)
        [loadAcc false 0 a (accessPhys s .read a n)] true true st p.toNat k.toNat
    else .ok (advance s))

/-! ## Stores (R382-R384, 10 R251) -/

/-- One lane's store: its lane, address, and cells or fault. -/
structure LaneStore where
  lane : Nat
  addr : Nat
  cells : Except LFault (List (Nat × Byte))

/-- The cells of the lanes that translated, in ascending lane order, so that the highest lane's bytes stand (10 R244). -/
def storeCells (xs : List LaneStore) : List (Nat × Byte) :=
  xs.flatMap (fun x => match x.cells with
    | .ok cs => cs
    | .error _ => [])

/-- The accesses of the lanes that translated. -/
def storeAccs (xs : List LaneStore) : List LaneAcc :=
  xs.filterMap (fun x => match x.cells with
    | .ok cs => some { lane := x.lane, va := x.addr % 2 ^ 56, bytes := cs.map (·.1) }
    | .error _ => none)

/-- The faults of the lanes. -/
def storeFaults (xs : List LaneStore) : List (Nat × LFault) :=
  xs.filterMap (fun x => match x.cells with
    | .error f => some (x.lane, f)
    | .ok _ => none)

/-- The fault of lowest address (10 R251). -/
def lowestFault : List (Nat × LFault) → Option LFault
  | [] => none
  | (_, f) :: rest =>
    match lowestFault rest with
    | none => some f
    | some g => if g.addr < f.addr then some g else some f

/-- The entry of an imprecise fault, for the slot the member was produced into. -/
def lateEntry (f : LFault) : FaultEntry := { cause := f.cause, detail := f.detail, addr := f.addr, slots := 0 }

/-- A weak store with nothing to write is complete once it is accepted (R223; 10 R251). -/
def acceptStore (o : Op) (s : State) : State :=
  match o.kind with
  | .store _ [] => finishOp o s
  | _ => s

/-- Issue of a store: a precise fault of a strong one, an imprecise one of a weak one (10 R251). A store to global memory
with nothing to wait for is accepted at once (10 Table 10-2). flag is the completion flag of a TST, which stands until the store is
performed at its captured scope (13 R316). -/
def issueStore (s : State) (u : Use) (loc : Bool) (size : Nat) (xs : List LaneStore) (scalar strong : Bool)
    (p k : Nat) (flag : Option Nat := none) : Res := do
  let ids ← consumeAt s k
  match if strong || scalar then lanesTrap (storeFaults xs) else none with
  | some t => .error (if scalar then { t with lanes := none } else t)
  | none =>
    let s1 := if loc then s else installAll s (xs.map (·.addr)) size
    let accepted := !loc && ids.isEmpty
    let i : Issue :=
      { kind := .store loc (storeCells xs), produce := p, consume := k, waits := ids, scope := scope s, strong := strong,
        done := if accepted then 1 else 0, rd := u.rd, late := (lowestFault (storeFaults xs)).map lateEntry,
        uncached := if loc then [] else uncachedLines s (xs.map (·.addr)) size
        cls := if loc then [] else lineClasses s (xs.map (·.addr)) size
        accs := if loc then [] else storeAccs xs
        locAccs := if loc then storeAccs xs else [], once := scalar
        flag := if accepted && scope s == 0 then none else flag }
    let s2 := advance (issueOp s1 i)
    .ok (if accepted then acceptStore (opOf s1 i) s2 else s2)

/-- The bytes a lane stores: the low n bytes of its registers. -/
def storeBytes (s : State) (d n l : Nat) : List Byte :=
  if n = 8 then bytesOf 4 (vget s d l).toNat ++ bytesOf 4 (vget s (d + 1) l).toNat else bytesOf n (vget s d l).toNat

/-- A per-lane store: active non-helper lanes (R379). -/
def laneStore (s : State) (u : Use) (loc : Bool) (size : Nat) (f : Nat → Nat) (bs : Nat → List Byte) (st : Bool)
    (p k : Nat) : Res :=
  if nonHelperMask s = 0 then .ok (advance s)
  else
    let tr (a : Nat) := if loc then localPlaces s a size else accessPhys s .write a size
    issueStore s u loc size ((lanesOf (nonHelperMask s)).map (fun l =>
      { lane := l, addr := f l, cells := (tr (f l)).map (fun ps => ps.zip (bs l)) })) false st p k

/-- ST (R382). -/
def execSt (d v : BitVec 7) (b : BitVec 2) (st : Bool) (p k : BitVec 4) (s : State) : Out :=
  if em s = 0 then .next (advance s)
  else commit s (do
    let n := accessSize (ty s)
    checkM s d.toNat (v.toNat :: dataList d.toNat n)
    laneStore s (regUse s (.st d v b st p k)) false n (laneAddr s b v.toNat) (storeBytes s d.toNat n) st p.toNat k.toNat)

/-- STL: local, aligned down to the access size (R377, R382). -/
def execStl (d v : BitVec 7) (b : BitVec 2) (st : Bool) (p k : BitVec 4) (s : State) : Out :=
  if em s = 0 then .next (advance s)
  else commit s (do
    let n := accessSize (ty s)
    checkM s d.toNat (v.toNat :: dataList d.toNat n)
    laneStore s (regUse s (.stl d v b st p k)) true n (fun l => alignDown (laneLocal s b v.toNat l) n)
      (storeBytes s d.toNat n) st p.toNat k.toNat)

/-- STLINE: 128 bytes for each lane (R384). -/
def execStline (d v : BitVec 7) (b : BitVec 2) (st : Bool) (p k : BitVec 4) (s : State) : Out :=
  if em s = 0 then .next (advance s)
  else commit s (do
    checkLine s d.toNat v.toNat
    laneStore s (regUse s (.stline d v b st p k)) false 128 (fun l => alignDown (laneAddr s b v.toNat l) 128)
      (fun l => (lineRegs d.toNat).flatMap (fun r => bytesOf 4 (vget s r l).toNat)) st p.toNat k.toNat)

/-- The bytes SST stores. -/
def scalarBytes (s : State) (d n : Nat) : List Byte :=
  if n = 8 then bytesOf 8 (sget64 s d).toNat else bytesOf n (sget s d).toNat

/-- SST: once for the wave (R379, R383). Its faults are precise, strong or weak: it stands in the second column of 10 R251 (log 25). -/
def execSst (d m : BitVec 6) (b : BitVec 2) (st : Bool) (p k : BitVec 4) (s : State) : Out :=
  if em s = 0 then .next (advance s)
  else commit s (do
    let n := accessSize (ty s)
    checkM s d.toNat []
    if someNonHelper s then
      let a := scalarAddr s b m.toNat
      issueStore s (regUse s (.sst d m b st p k)) false n
        [{ lane := 0, addr := a, cells := (accessPhys s .write a n).map (fun ps => ps.zip (scalarBytes s d.toNat n)) }]
        true st p.toNat k.toNat
    else .ok (advance s))

/-! ## Prefetch (R385) -/

/-- The line and class that PREF may fill for an address: translated, readable, region 0 and cached (R192, R385). -/
def prefLine (s : State) (a : Nat) : Option (Nat × Nat) :=
  match xlate s .read a with
  | .error _ => none
  | .ok e => if e.unc || paRegion (e.phys s a) != 0 || (noroute s (e.phys s a)).isSome then none else some (lineOf (e.phys s a), e.cls)

/-- Fill one line at the level of the hint: 0 the L1 and the L2, of which a Bivouac core has only the L2; 1 the L2; 2 the
home's memory-side cache. A line that cannot be served yet drops the hint. -/
def prefFill (h : Nat) (s : State) (x : Nat × Nat) : State :=
  if h = 2 then mcacheUse (dieQuota s s.g.die) x.2 x.1 false s
  else if !canRead s s.g.die none x.2 x.1 then s
  else if h = 0 && s.lane.isNone then prefetchLine s.g.die (l1Core s.g x.1) x.2 x.1 s
  else readLine s.g.die none x.2 x.1 s

/-- The prefetch of a lane's line: its translation is used, and a line or a walk that cannot be served yet drops it. -/
def prefLane (h a : Nat) (s : State) : State :=
  let t := install s a
  if t.coh.stalled then s
  else match prefLine s a with
    | none => t
    | some x => prefFill h t x

/-- PREF: a hint, dropped while its consume key has members not performed; it is no member and never faults (log 36). -/
def execPref (h v : BitVec 7) (b : BitVec 2) (_p k : BitVec 4) (s : State) : Out :=
  run s (do
    check (decide (h.toNat ≤ 2)) (trapOf causeIllop 1)
    check (vHeld s v.toNat) (trapOf causeIllopnd 1)
    .ok (if allPerformed s s.w (scope s) (membersOf s s.w k.toNat) then
      ((lanesOf (nonHelperMask s)).map (fun l => alignDown (laneAddr s b v.toNat l) 128)).foldl (fun t a => prefLane h.toNat a t) s
    else s))

end Sys2Proof.Machine
end

