-- ==== Sys2Proof/Machine/Atomic.lean ====
section
/-!
DEFINITION. The atomics: what each stores, their issue, and their performance with the return of the old values
(15 R386, R387; 01 R34; 10 R246).
-/

namespace Sys2Proof.Machine

open Sys2Proof

/-! ## New values (Table 15-2) -/

/-- The new value of w bits and the flags of an operation on old, x and c. -/
def atomNew (op : AtomOp) (w : Nat) (signed : Bool) (rm : Nat) (fl : Bool) (old x c : Nat) : Nat × Word :=
  let v (y : Nat) : Int := if signed then sext y w else (y : Int)
  match op with
  | .add => ((old + x) % 2 ^ w, 0)
  | .min => (if v x < v old then x else old, 0)
  | .max => (if v old < v x then x else old, 0)
  | .band => (Nat.land old x, 0)
  | .bor => (Nat.lor old x, 0)
  | .bxor => (Nat.xor old x, 0)
  | .xchg => (x, 0)
  | .cas => (if old = c then x else old, 0)
  | .inc => (if x ≤ old then 0 else old + 1, 0)
  | .dec => (if old = 0 ∨ x < old then x else old - 1, 0)
  | .fadd =>
    let a := Num.add rm (Num.inF32 fl old) (Num.inF32 fl x)
    let q := Num.round Num.f32 rm fl .arith a.1
    (q.1, q.2 ||| a.2)

/-! ## Issue (R386, R387) -/

/-- The types an operation accepts. -/
def atomType (op : AtomOp) (t : Nat) : Bool :=
  match op with
  | .xchg | .cas => decide (t ≤ 4)
  | .fadd => t == 4
  | _ => decide (t ≤ 3)

/-- The registers an atomic takes: twice as many for cas. -/
def atomRegs (op : AtomOp) (n : Nat) : Nat := (if op = .cas then 2 else 1) * (max n 4 / 4)

/-- Access of an atomic: region 1 or 2 raises NOROUTE cause 0 (R387). -/
def atomPhys (s : State) (a n : Nat) : Except LFault (List Nat) :=
  match accessPhys s .both a n with
  | .error f => .error f
  | .ok ps =>
    if ps.any (fun x => paRegion x == 1 || paRegion x == 2) then .error { cause := causeNoroute, detail := 0, addr := a % 2 ^ 56 }
    else .ok ps

/-- A register value of n bytes from d on in a lane. -/
def laneNum (s : State) (d n l : Nat) : Nat :=
  (vget s d l).toNat + if n = 8 then (vget s (d + 1) l).toNat * 2 ^ 32 else 0

/-- One lane of an atomic, when it translated. -/
def atomItem (s : State) (op : AtomOp) (d n l : Nat) (ps : List Nat) : AtomItem :=
  { lane := l, addr := ps.headD 0, x := laneNum s d n l, c := if op = .cas then laneNum s (d + n / 4) n l else 0 }

/-- An atomic instruction: its lanes translate together, then it is in flight (04 R117). -/
def atomic (op : AtomOp) (i : Instr) (d v : Nat) (b : BitVec 2) (st : Bool) (p k : Nat) (s : State) : Out :=
  if em s = 0 then .next (advance s)
  else commit s (do
    let n := accessSize (ty s)
    check (d % atomRegs op n == 0) (trapOf causeIllop 1)
    check (atomType op (ty s)) (trapOf causeIllopnd 4)
    check ((v :: (List.range (atomRegs op n)).map (d + ·)).all (vHeld s)) (trapOf causeIllopnd 1)
    check (op != .fadd || decide (rnd s ≤ 4)) (trapOf causeIllopnd 4)
    checkScope s
    if nonHelperMask s = 0 then .ok (advance s)
    else do
      let f (l : Nat) := alignDown (laneAddr s b v l) n
      let xs := (lanesOf (nonHelperMask s)).map (fun l => (l, atomPhys s (f l) n))
      let ids ← consumeAt s k
      lanesOk xs
      let items := xs.filterMap (fun x => match x.2 with
        | .ok ps => some (atomItem s op d n x.1 ps)
        | .error _ => none)
      let u := regUse s i
      .ok (advance (issueOp (installAll s ((lanesOf (nonHelperMask s)).map f) n)
        { kind := .atomic op n (signedAtom (ty s)) (rnd s) (flush s) d items, produce := p, consume := k, waits := ids,
          scope := scope s, strong := st, flag := assignedFlag s, rd := u.rd, wr := u.wr,
          uncached := uncachedLines s ((lanesOf (nonHelperMask s)).map f) n
          cls := lineClasses s ((lanesOf (nonHelperMask s)).map f) n
          accs := okAccs (xs.map (fun x => (x.1, x.2.map (fun ps => { lane := x.1, va := f x.1 % 2 ^ 56, bytes := ps })))) })))
where
  /-- Signed for I32 and I64. -/
  signedAtom (t : Nat) : Bool := t == 1 || t == 3

/-- ATOM.add. -/
def execAtomAdd (d v : BitVec 7) (b : BitVec 2) (st : Bool) (p k : BitVec 4) (s : State) : Out :=
  atomic .add (.atomAdd d v b st p k) d.toNat v.toNat b st p.toNat k.toNat s

/-- ATOM.min. -/
def execAtomMin (d v : BitVec 7) (b : BitVec 2) (st : Bool) (p k : BitVec 4) (s : State) : Out :=
  atomic .min (.atomMin d v b st p k) d.toNat v.toNat b st p.toNat k.toNat s

/-- ATOM.max. -/
def execAtomMax (d v : BitVec 7) (b : BitVec 2) (st : Bool) (p k : BitVec 4) (s : State) : Out :=
  atomic .max (.atomMax d v b st p k) d.toNat v.toNat b st p.toNat k.toNat s

/-- ATOM.and. -/
def execAtomAnd (d v : BitVec 7) (b : BitVec 2) (st : Bool) (p k : BitVec 4) (s : State) : Out :=
  atomic .band (.atomAnd d v b st p k) d.toNat v.toNat b st p.toNat k.toNat s

/-- ATOM.or. -/
def execAtomOr (d v : BitVec 7) (b : BitVec 2) (st : Bool) (p k : BitVec 4) (s : State) : Out :=
  atomic .bor (.atomOr d v b st p k) d.toNat v.toNat b st p.toNat k.toNat s

/-- ATOM.xor. -/
def execAtomXor (d v : BitVec 7) (b : BitVec 2) (st : Bool) (p k : BitVec 4) (s : State) : Out :=
  atomic .bxor (.atomXor d v b st p k) d.toNat v.toNat b st p.toNat k.toNat s

/-- ATOM.xchg. -/
def execAtomXchg (d v : BitVec 7) (b : BitVec 2) (st : Bool) (p k : BitVec 4) (s : State) : Out :=
  atomic .xchg (.atomXchg d v b st p k) d.toNat v.toNat b st p.toNat k.toNat s

/-- ATOM.cas. -/
def execAtomCas (d v : BitVec 7) (b : BitVec 2) (st : Bool) (p k : BitVec 4) (s : State) : Out :=
  atomic .cas (.atomCas d v b st p k) d.toNat v.toNat b st p.toNat k.toNat s

/-- ATOM.inc. -/
def execAtomInc (d v : BitVec 7) (b : BitVec 2) (st : Bool) (p k : BitVec 4) (s : State) : Out :=
  atomic .inc (.atomInc d v b st p k) d.toNat v.toNat b st p.toNat k.toNat s

/-- ATOM.dec. -/
def execAtomDec (d v : BitVec 7) (b : BitVec 2) (st : Bool) (p k : BitVec 4) (s : State) : Out :=
  atomic .dec (.atomDec d v b st p k) d.toNat v.toNat b st p.toNat k.toNat s

/-- ATOM.fadd. -/
def execAtomFadd (d v : BitVec 7) (b : BitVec 2) (st : Bool) (p k : BitVec 4) (s : State) : Out :=
  atomic .fadd (.atomFadd d v b st p k) d.toNat v.toNat b st p.toNat k.toNat s

end Sys2Proof.Machine
end

