-- ==== Sys2Proof/Machine/Records.lean ====
section
/-!
DEFINITION. Phase records in memory: their size and place, the bytes of a state slot, and the group that a slot's bytes give
(04 R96-R98). Where each byte of a section stands is the model's choice (log 9).
-/

namespace Sys2Proof.Machine

open Sys2Proof

/-! ## Needs of a descriptor (03 R77; 04 R97) -/

/-- Launch counts of wave w. -/
def Desc.count (d : Desc) (w : Nat) : Nat × Nat := d.counts.getD w (0, 0)

/-- Indices of the waves on a slot. -/
def wavesOn (n slot : Nat) : List Nat := (List.range n).filter (fun w => w % 4 == slot)

/-- Blocks and tiles that a slot needs, for counts per wave. -/
def slotNeed (d : Desc) (counts : Nat → Nat × Nat) (slot : Nat) : Nat × Nat :=
  (wavesOn d.waves slot).foldl (fun p w => (p.1 + (counts w).1, p.2 + (counts w).2)) (d.poolv, d.poolx)

/-- The slot of a wave index. -/
def slotOf (i : Nat) : Nat := i % 4

/-- Blocks or tiles held. -/
def heldUnits (w : Wave) (vector : Bool) : Nat := if vector then w.vblocks else w.tiles

/-- The highest set bit below n, plus one; 0 with none. -/
def topBit (x : Nat) : Nat → Nat
  | 0 => 0
  | n + 1 => if bit x n then n + 1 else topBit x n

/-- Blocks and tiles of wave i at the start of a later phase (R94). -/
def phaseCount (d : Desc) (i : Nat) : Nat × Nat :=
  (max (d.count i).1 ((topBit d.carryv.toNat 128 + 7) / 8), max (d.count i).2 (topBit d.carryx.toNat 16))

/-- Blocks and tiles that the waves and pools of a group hold at most, on all slots, in any phase: those of a later phase. -/
def mostNeed (d : Desc) : Nat × Nat :=
  (List.range 4).foldl (fun p i => (p.1 + (slotNeed d (phaseCount d) i).1, p.2 + (slotNeed d (phaseCount d) i).2)) (0, 0)

/-- S of R97, with the counts of a later phase, so that every state of the group has its place (log 9). -/
def slotSize (d : Desc) : Nat := 4096 + 2048 * d.waves + 3072 * (mostNeed d).1 + 12672 * (mostNeed d).2 + d.lsize

/-- Size of a group's phase record (R97). -/
def recordSize (d : Desc) : Nat := (256 + 2 * slotSize d + 4095) / 4096 * 4096

/-- Size and base of a context's phase record area (04 R96). -/
def areaSize (c : Ctx) : Nat := bits c.phrArea.toNat 63 44 * 2 ^ 20
def areaBase (c : Ctx) : Nat := bits c.phrArea.toNat 39 20 * 2 ^ 20

/-! ## Places in a record (R98, Table 4-3) -/

/-- The address of a record in the module's memory, before moved blocks are taken into account. -/
def recordBase (s : State) (r : Record) : Nat := ownPa s ((areaBase (ctxGet s r.ctx) + r.off) % 2 ^ 40)

/-- Units that the waves before wave i of a group hold. -/
def unitsBefore (vector : Bool) (g : Group) (i : Nat) : Nat :=
  (g.peers.filter (fun w => decide (w.idx < i))).foldl (fun n w => n + heldUnits w vector) 0

/-- Where the vector blocks of a slot begin. -/
def blockArea (d : Desc) : Nat := 4096 + 2048 * d.waves

/-- Where its tiles begin: after room for the blocks of every slot and pool (log 9). -/
def tileArea (d : Desc) : Nat := blockArea d + 3072 * (mostNeed d).1

/-- Where its local memory begins: it ends the slot. -/
def localArea (d : Desc) : Nat := slotSize d - d.lsize

/-- Where the blocks of a wave are. -/
def waveBlocks (g : Group) (w : Wave) : Nat := blockArea g.desc + 3072 * unitsBefore true g w.idx

/-- Where the tiles of a wave are. -/
def waveTiles (g : Group) (w : Wave) : Nat := tileArea g.desc + 12672 * unitsBefore false g w.idx

/-! ## Bytes of words -/

/-- The bytes of words. -/
def wordCells (t : Tab Word) : List (Nat × Byte) :=
  t.flatMap (fun e => (bytesOf 4 e.2.toNat).mapIdx (fun i b => (4 * e.1 + i, b)))

/-- The words that bytes make up. -/
def cellWords (cs : List (Nat × Byte)) : Tab Word :=
  cs.foldl (fun m c => Tab.put 0 m (c.1 / 4) ((Tab.get 0 m (c.1 / 4) : Word) ||| (BitVec.setWidth 32 c.2 <<< (8 * (c.1 % 4))))) []

/-- Words in rows of n. -/
def wordRows (n : Nat) (t : Tab Word) : Tab (Tab Word) :=
  t.foldl (fun m e => Tab.put [] m (e.1 / n) (Tab.put 0 (Tab.get [] m (e.1 / n)) (e.1 % n) e.2)) []

/-! ## Fields of a section -/

/-- A field of a section: its offset, its length in bytes, how its value is found, and how it is put back. -/
structure SecField (α : Type) where
  start : Nat
  len : Nat
  get : α → Nat
  set : Nat → α → α

/-- Values of n bits each as one number, the first lowest. -/
def packNums (n : Nat) (xs : List Nat) : Nat := xs.foldr (fun x m => x % 2 ^ n + 2 ^ n * m) 0

/-- Value i of n bits. -/
def partNum (n v i : Nat) : Nat := v / 2 ^ (n * i) % 2 ^ n

/-- Stack entries, the newest first, with their number. -/
def packEntries (es : List Entry) : Nat := es.length % 256 + 256 * packNums 256 (es.reverse.map (fun e => numOf (entryBytes e)))

/-- The entries that a number holds, the newest first. -/
def entriesOf (v : Nat) : List Entry :=
  ((List.range (min (v % 256) 16)).map (fun i => entryOf (bytesOf 32 (partNum 256 (v / 256) i)))).reverse

/-- A YIELD.B continuation: set, the phase, the barrier. -/
def packYield (w : Wave) : Nat :=
  match w.status with
  | .yielded off p => 1 + p % 256 * 256 + off * 2 ^ 16
  | _ => 0

/-- The wave with the continuation that a number holds. -/
def setYield (v : Nat) (w : Wave) : Wave :=
  if v % 256 = 0 then { w with status := match w.status with
    | .yielded _ _ => .ready
    | x => x }
  else { w with status := .yielded (v / 2 ^ 16) (v / 256 % 256) }

/-- The wave section (R98, Table 4-1): what fits its 2,048 bytes. -/
def waveFields : List (SecField Wave) := [
  ⟨0, 252, fun w => packNums 32 ((List.range 63).map (fun i => ((Tab.get 0 w.sreg i : Word)).toNat)),
    fun v w => { w with sreg := Tab.ofFn 0 63 (fun i => BitVec.ofNat 32 (partNum 32 v i)) }⟩,
  ⟨256, 8, fun w => w.pc.toNat, fun v w => { w with pc := BitVec.ofNat 56 v }⟩,
  ⟨264, 84, fun w => packNums 96 ((List.range 7).map (fun i => ((Tab.get 0 w.pred (i + 1) : LaneMask)).toNat)),
    fun v w => { w with pred := Tab.ofFn 0 8 (fun i => if i = 0 then 0 else BitVec.ofNat 96 (partNum 96 v (i - 1))) }⟩,
  ⟨352, 12, fun w => packNums 8 ((List.range 12).map (Tab.get 0 w.flag)), fun v w => { w with flag := Tab.ofFn 0 12 (partNum 8 v) }⟩,
  ⟨364, 4, fun w => w.mode.toNat, fun v w => { w with mode := BitVec.ofNat 32 v }⟩,
  ⟨368, 4, fun w => w.role.toNat, fun v w => { w with role := BitVec.ofNat 32 v }⟩,
  ⟨372, 4, fun w => w.astat.toNat, fun v w => { w with astat := BitVec.ofNat 32 v }⟩,
  ⟨376, 16, fun w => packNums 32 [w.rand.x.toNat, w.rand.y.toNat, w.rand.z.toNat, w.rand.w.toNat], fun v w => { w with rand :=
    { x := BitVec.ofNat 32 (partNum 32 v 0), y := BitVec.ofNat 32 (partNum 32 v 1), z := BitVec.ofNat 32 (partNum 32 v 2)
      w := BitVec.ofNat 32 (partNum 32 v 3) } }⟩,
  ⟨392, 12, fun w => w.hmask.toNat, fun v w => { w with hmask := BitVec.ofNat 96 v }⟩,
  ⟨404, 2, fun w => w.keys.arrival.toNat, fun v w => { w with keys := { w.keys with arrival := BitVec.ofNat 16 v } }⟩,
  ⟨406, 1, fun w => w.vblocks, fun v w => { w with vblocks := v }⟩,
  ⟨407, 1, fun w => w.tiles, fun v w => { w with tiles := v }⟩,
  ⟨408, 32, fun w => packNums 16 ((List.range 16).map (Tab.get 0 w.keys.gen)),
    fun v w => { w with keys := { w.keys with gen := Tab.ofFn 0 16 (partNum 16 v) } }⟩,
  ⟨440, 6, packYield, setYield⟩,
  ⟨448, 4, fun w => if w.trap.on then 1 else 0, fun v w => { w with trap := { w.trap with on := decide (v ≠ 0) } }⟩,
  ⟨452, 4, fun w => w.trap.cause.toNat, fun v w => { w with trap := { w.trap with cause := BitVec.ofNat 32 v } }⟩,
  ⟨456, 4, fun w => w.trap.detail.toNat, fun v w => { w with trap := { w.trap with detail := BitVec.ofNat 32 v } }⟩,
  ⟨460, 8, fun w => w.trap.pc.toNat, fun v w => { w with trap := { w.trap with pc := BitVec.ofNat 56 v } }⟩,
  ⟨468, 8, fun w => w.trap.addr.toNat, fun v w => { w with trap := { w.trap with addr := BitVec.ofNat 56 v } }⟩,
  ⟨476, 12, fun w => w.trap.em.toNat, fun v w => { w with trap := { w.trap with em := BitVec.ofNat 96 v } }⟩,
  ⟨488, 4, fun w => w.trap.mode.toNat, fun v w => { w with trap := { w.trap with mode := BitVec.ofNat 32 v } }⟩,
  ⟨496, 1, fun w => w.batches, fun v w => { w with batches := v }⟩,
  ⟨512, 513, fun w => packEntries w.stack, fun v w => { w with stack := entriesOf v }⟩,
  ⟨1056, 513, fun w => packEntries w.trap.stack, fun v w => { w with trap := { w.trap with stack := entriesOf v } }⟩]

/-- A stopped chain: its next entry and the state of its open LOOPs. -/
def packChain (c : Chain) : Nat :=
  packNums 32 ([c.next, c.loops.length] ++ c.loops.flatMap (fun l => [l.start, l.stop, l.left, l.iter]))

/-- The chain with what a number holds. -/
def setChain (v : Nat) (c : Chain) : Chain :=
  { c with
    next := partNum 32 v 0
    loops := (List.range (min (partNum 32 v 1) 4)).map (fun i =>
      { start := partNum 32 v (4 * i + 2), stop := partNum 32 v (4 * i + 3), left := partNum 32 v (4 * i + 4), iter := partNum 32 v (4 * i + 5) }) }

/-- The group section (R98): the group barriers, the pools, and up to 16 stopped chains of 128 bytes. -/
def groupFields : List (SecField Group) := [
  ⟨0, 16, fun g => packNums 32 ((List.range 4).map (Tab.get 0 g.gbarGen)), fun v g => { g with gbarGen := Tab.ofFn 0 4 (partNum 32 v) }⟩,
  ⟨16, 16, fun g => packNums 32 ((List.range 4).map (Tab.get 0 g.gbarArr)), fun v g => { g with gbarArr := Tab.ofFn 0 4 (partNum 32 v) }⟩,
  ⟨32, 4, fun g => packNums 8 ((List.range 4).map (Tab.get 0 g.vpool)), fun v g => { g with vpool := Tab.ofFn 0 4 (partNum 8 v) }⟩,
  ⟨36, 4, fun g => packNums 8 ((List.range 4).map (Tab.get 0 g.xpool)), fun v g => { g with xpool := Tab.ofFn 0 4 (partNum 8 v) }⟩,
  ⟨64, 2048, fun g => packNums 1024 (g.chains.map packChain),
    fun v g => { g with chains := g.chains.mapIdx (fun i c => if i < 16 then setChain (partNum 1024 v i) c else c) }⟩]

/-- The bytes of fields that are not zero. -/
def fieldCells {α : Type} (fs : List (SecField α)) (x : α) : List (Nat × Byte) :=
  (fs.flatMap (fun f => (bytesOf f.len (f.get x)).mapIdx (fun i b => (f.start + i, b)))).filter (fun c => c.2 != 0)

/-- The number in n cells from one on. -/
def cellNum (cs : List (Nat × Byte)) (a n : Nat) : Nat :=
  (cs.filter (fun c => decide (a ≤ c.1) && decide (c.1 < a + n))).foldl (fun m c => m + c.2.toNat * 2 ^ (8 * (c.1 - a))) 0

/-- What the cells of a section make of it. -/
def loadFields {α : Type} (fs : List (SecField α)) (cs : List (Nat × Byte)) (x : α) : α :=
  fs.foldl (fun y f => f.set (cellNum cs f.start f.len) y) x

/-! ## Writing a slot -/

/-- A part of a slot: its offset, its length, and its bytes that are not zero. -/
structure Part where
  start : Nat
  len : Nat
  bytes : List (Nat × Byte)

/-- The parts of a wave: all it holds, or only what is carried. -/
def waveParts (full : Bool) (g : Group) (w : Wave) : List Part :=
  ((List.range (8 * w.vblocks)).filter (fun r => full || g.desc.carryv.getLsbD r)).map (fun r =>
    { start := waveBlocks g w + 384 * r, len := 384, bytes := wordCells (Tab.get [] w.vreg r) }) ++
  ((List.range w.tiles).filter (fun x => full || g.desc.carryx.getLsbD x)).map (fun x =>
    { start := waveTiles g w + 12672 * x, len := 12672
      bytes := wordCells (Tab.get [] w.tile x) ++ (wordCells (Tab.get [] w.side x)).map (fun c => (12288 + c.1, c.2)) })

/-- Bytes of local memory that a state keeps. -/
def keptLocal (full : Bool) (d : Desc) : Nat := if full then d.lsize else d.carried

/-- The part of local memory. -/
def localPart (full : Bool) (g : Group) : Part :=
  { start := localArea g.desc, len := keptLocal full g.desc, bytes := g.lmem.filter (fun c => decide (c.1 < keptLocal full g.desc)) }

/-- The section of a wave. -/
def waveSection (w : Wave) : Part := { start := 4096 + 2048 * w.idx, len := 2048, bytes := fieldCells waveFields w }

/-- The group section, which a phase end leaves as it is. -/
def groupSection (full : Bool) (g : Group) : List Part :=
  if full then [{ start := 0, len := 4096, bytes := fieldCells groupFields g }] else []

/-- Every part of a state of a group. -/
def groupParts (full : Bool) (g : Group) : List Part :=
  groupSection full g ++ g.peers.map waveSection ++ g.peers.flatMap (waveParts full g) ++ [localPart full g]

/-- The pieces of n bytes of the module's memory from a on: their offset, where the model keeps them, and their length (08 R214). -/
def pieces (s : State) (a n : Nat) : List (Nat × Nat × Nat) :=
  if s.svc.redirect.isEmpty then [(0, a, n)]
  else (List.range ((a + n + 4095) / 4096 - a / 4096)).map (fun i =>
    let lo := max a ((a / 4096 + i) * 4096)
    (lo - a, storagePlace s lo, min (a + n) ((a / 4096 + i + 1) * 4096) - lo))

/-- Replace n bytes where the model keeps them. -/
def putPiece (a n : Nat) (bytes : List (Nat × Byte)) (s : State) : State :=
  { s with mem := { s.mem with
      cells := Tab.putAll 0 (s.mem.cells.filter (fun c => !(decide (a ≤ c.1) && decide (c.1 < a + n)))) (bytes.map (fun c => (a + c.1, c.2)))
      dev := s.mem.dev.filter (fun d => !(decide (a ≤ 32 * d.1) && decide (32 * d.1 < a + n))) } }

/-- Replace n bytes of the module's memory from a on. -/
def putRegion (a n : Nat) (bytes : List (Nat × Byte)) (s : State) : State :=
  (pieces s a n).foldl (fun t p => putPiece p.2.1 p.2.2
    ((bytes.filter (fun c => decide (p.1 ≤ c.1) && decide (c.1 < p.1 + p.2.2))).map (fun c => (c.1 - p.1, c.2))) t) s

/-- The check values of local memory go with its sectors (01 R32). -/
def putLocalDev (a n : Nat) (dev : Tab (BitVec 16)) (s : State) : State :=
  let moved := (dev.filter (fun d => decide (32 * d.1 < n))).map (fun d => (storagePlace s (a + 32 * d.1) / 32, d.2))
  { s with mem := { s.mem with dev := Tab.putAll 0 s.mem.dev moved } }

/-- The physical address of a state slot. -/
def slotBase (s : State) (r : Record) (slot : Nat) (d : Desc) : Nat := recordBase s r + 256 + slot * slotSize d

/-- The lines of a state in a slot. -/
def slotLines (s : State) (r : Record) (slot : Nat) (full : Bool) (g : Group) : List Nat :=
  let a := slotBase s r slot g.desc
  ((groupParts full g).flatMap (fun p =>
    (List.range ((a + p.start + p.len + 127) / 128 - (a + p.start) / 128)).map (fun i =>
      storagePlace s (128 * ((a + p.start) / 128 + i)) / 128))).eraseDups

/-- The bytes of a state of a group in a slot. -/
def putSlot (r : Record) (slot : Nat) (full : Bool) (g : Group) (s : State) : State :=
  let a := slotBase s r slot g.desc
  let t := (groupParts full g).foldl (fun t p => putRegion (a + p.start) p.len p.bytes t) s
  putLocalDev (a + localArea g.desc) (keptLocal full g.desc) g.ldev t

/-- Local memory of a saved group that changes in its record. -/
def putSavedLocal (r : Record) (g : Group) (s : State) : State :=
  let p := localPart (r.kind != 1) g
  let a := slotBase s r r.selector g.desc + p.start
  putLocalDev a p.len g.ldev (putRegion a p.len p.bytes s)

/-- What changes in a wave that is saved changes in its section too (R112). -/
def putSavedFields (r : Record) (d : Desc) (w v : Wave) (s : State) : State :=
  let a := slotBase s r r.selector d + 4096 + 2048 * w.idx
  (waveFields.filter (fun f => f.get w != f.get v)).foldl (fun t f =>
    putRegion (a + f.start) f.len (fieldCells [{ f with start := 0 }] v) t) s

/-- The sections of the waves that are saved follow a change of state. -/
def followSaved (t s : State) : State :=
  t.records.foldl (fun u r =>
    match (if resident t r.handle then none else (s.records.find? (fun x => x.handle == r.handle)).bind (·.saved)), r.saved with
    | some g, some h => (g.peers.zip h.peers).foldl (fun u p => if p.1 = p.2 then u else putSavedFields r h.desc p.1 p.2 u) u
    | _, _ => u) t

/-! ## Reading a slot -/

/-- The bytes at n addresses from a on that are not zero. -/
def region (s : State) (a n : Nat) : List (Nat × Byte) :=
  (pieces s a n).flatMap (fun p =>
    (s.mem.cells.filter (fun c => decide (p.2.1 ≤ c.1) && decide (c.1 < p.2.1 + p.2.2))).map (fun c => (p.1 + (c.1 - p.2.1), c.2)))

/-- A wave with its registers and tiles from a slot. -/
def loadWave (s : State) (a : Nat) (full : Bool) (g : Group) (w : Wave) : Wave :=
  let rows := wordRows 96 (cellWords (region s (a + waveBlocks g w) (3072 * w.vblocks)))
  let tiles := wordRows 3168 (cellWords (region s (a + waveTiles g w) (12672 * w.tiles)))
  let kept := tiles.filter (fun e => full || g.desc.carryx.getLsbD e.1)
  { w with
    vreg := rows.filter (fun e => full || g.desc.carryv.getLsbD e.1)
    tile := (kept.map (fun e => (e.1, e.2.filter (fun c => decide (c.1 < 3072))))).filter (fun e => !e.2.isEmpty)
    side := (kept.map (fun e => (e.1, (e.2.filter (fun c => decide (3072 ≤ c.1))).map (fun c => (c.1 - 3072, c.2))))).filter
      (fun e => !e.2.isEmpty) }

/-- A wave has executed EXIT as the head of a record says. -/
def loadExited (m : Nat) (w : Wave) : Wave :=
  if bit m w.idx then { w with status := .exited } else if w.status = .exited then { w with status := .ready } else w

/-- The sections of a state: those of the waves, and of the group but for a phase end. -/
def loadSections (s : State) (a : Nat) (full : Bool) (g : Group) : Group :=
  let h := if full then loadFields groupFields (region s a 4096) g else g
  { h with peers := h.peers.map (fun w => loadFields waveFields (region s (a + 4096 + 2048 * w.idx) 2048) w) }

/-- The deviations of the sectors of n bytes from a on. -/
def regionDev (s : State) (a n : Nat) : Tab (BitVec 16) :=
  (pieces s a n).flatMap (fun p =>
    (s.mem.dev.filter (fun d => decide (p.2.1 ≤ 32 * d.1) && decide (32 * d.1 < p.2.1 + p.2.2))).map (fun d =>
      ((p.1 + (32 * d.1 - p.2.1)) / 32, d.2)))

/-- A group with what the bytes of its record give: the sections, registers, tiles and local memory, phase, indices and exited waves
(R96). -/
def loadGroup (s : State) (r : Record) (slot : Nat) (g : Group) : Group :=
  let h := storagePlace s (recordBase s r)
  let full := memNum s (h + 1) 1 != 1
  let a := slotBase s r slot g.desc
  let n := keptLocal full g.desc
  let l := a + localArea g.desc
  let g := loadSections s a full g
  { g with
    phase := memNum s (h + 4) 4
    x := BitVec.ofNat 32 (memNum s (h + 36) 4), y := BitVec.ofNat 32 (memNum s (h + 40) 4), z := BitVec.ofNat 32 (memNum s (h + 44) 4)
    lmem := region s l n
    ldev := regionDev s l n
    peers := g.peers.map (fun w => loadExited (memNum s (h + 32) 4) (loadWave s a full g w)) }

/-- The group that a record's committed slot gives, the slot that its selector byte in memory names (R98). -/
def recordGroup (s : State) (r : Record) : Option Group :=
  let slot := memNum s (storagePlace s (recordBase s r)) 1 % 2
  (if slot = r.selector then r.saved else r.other.or r.saved).map (loadGroup s r slot)

end Sys2Proof.Machine
end

