-- ==== Sys2Proof/Machine/Bivouac.lean ====
section
/-!
DEFINITION. An ejected lane as an agent of its own: the wave as the lane sees it, what runs on a Bivouac core, and the
recall of a lane (06 R157-R160, R166, R168, Table 6-3; 14 R374).
-/

namespace Sys2Proof.Machine

open Sys2Proof

/-- What an instruction does on a Bivouac core (Table 6-3). -/
inductive LaneClass where
  | runs
  | recalls
  | window (reg : Nat)
deriving DecidableEq, Repr

/-- Instructions that recall the lane whatever they name (Table 6-3). -/
def alwaysRecalls : Instr → Bool
  | .qswz .. => true
  | .qbcast .. => true
  | .qdx .. => true
  | .qdy .. => true
  | .vshfl .. => true
  | .vballot .. => true
  | .vreadl .. => true
  | .vwritel .. => true
  | .vrand .. => true
  | .mma .. => true
  | .mmabAnd .. => true
  | .mmabXor .. => true
  | .xzero .. => true
  | .xmovr .. => true
  | .xmovc .. => true
  | .xscale .. => true
  | .xcvt .. => true
  | .tld .. => true
  | .tst .. => true
  | .sscan .. => true
  | .ssld .. => true
  | .ssst .. => true
  | .gbar .. => true
  | .gbarPhase .. => true
  | .binit .. => true
  | .bexpect .. => true
  | .barrive .. => true
  | .bwait .. => true
  | .btest .. => true
  | .yield => true
  | .yieldB .. => true
  | .vgive .. => true
  | .vclaim .. => true
  | .xgive .. => true
  | .xclaim .. => true
  | .enq .. => true
  | .kclr .. => true
  | .kjoin .. => true
  | .kfork .. => true
  | .ksend .. => true
  | .trap .. => true
  | .bkpt .. => true
  | .tret => true
  | .sysw .. => true
  | _ => false

/-- CALL, JR.link and SLOOP write the lane's own copy of a scalar register (14 R374). -/
def writesOwnScalar : Instr → Bool
  | .call .. => true
  | .jrLink .. => true
  | .sloop .. => true
  | _ => false

/-- The register is a scalar one. -/
def isScalarName : Reg → Bool
  | .s _ => true
  | _ => false

/-- The vector registers of a set that lie outside a window of n registers. -/
def outside (n : Nat) (rs : List Reg) : List Nat :=
  rs.filterMap (fun r => match r with
    | .v k => if k < n then none else some k
    | _ => none)

/-- The least of a list. -/
def leastOf : List Nat → Option Nat
  | [] => none
  | x :: xs =>
    match leastOf xs with
    | none => some x
    | some y => some (min x y)

/-- The class of an instruction for a lane with a window of n registers (Table 6-3, R160). Where an instruction that always recalls, or
names a scalar or mask register that does, also writes a register outside the window, Table 6-3 does not say which row holds: the model
recalls it. Where it writes several registers outside, EJECTWIN reports the lowest. Both are the model's choice (log 45). -/
def laneClass (u : Use) (i : Instr) (n : Nat) : LaneClass :=
  if alwaysRecalls i || (u.wr.any isScalarName && !writesOwnScalar i) || overlap emRegs u.rd || overlap emRegs u.wr then
    .recalls
  else
    match leastOf (outside n u.wr) with
    | some r => .window r
    | none => if (outside n u.rd).isEmpty then .runs else .recalls

/-! ## The lane's view (R157, R159) -/

/-- Mask words naming one lane, over a lane's scalar registers. -/
def laneScalars (e : EjLane) : Tab Word :=
  (List.range 3).foldl (fun t i => Tab.put 0 t (60 + i) (maskWord (BitVec.twoPow 96 e.lane) i)) e.sreg

/-- The wave as an ejected lane sees it: its window, registers, mode, flags and place, with itself alone active. R157's list of what a
lane takes has no helper mask: a guard-false lane whose bit is set there is taken as no helper, the model's choice (log 45). -/
def laneView (s : State) (e : EjLane) : State :=
  { s with
    lane := some e.lane
    w := { s.w with
      pc := e.pc, status := e.status, clause := e.clause, mode := e.mode, flag := e.flag, hmask := 0, tiles := 0
      sreg := laneScalars e
      vblocks := e.live
      vreg := Tab.ofFn [] (8 * e.live) (fun n => Tab.put 0 [] e.lane (Tab.get 0 e.win n))
      pred := Tab.ofFn 0 8 (fun g => if e.pred.getLsbD g then BitVec.twoPow 96 e.lane else 0)
      trap := {}, readsSince := e.readsSince, laneFault := false } }

/-- The lane after it has run in its view. -/
def laneAfter (e : EjLane) (w : Wave) : EjLane :=
  { e with
    pc := w.pc, mode := w.mode, sreg := w.sreg, flag := w.flag, clause := w.clause, status := w.status
    win := Tab.ofFn 0 (8 * e.live) (fun n => Tab.get 0 (Tab.get [] w.vreg n) e.lane)
    pred := BitVec.ofNat 8 ((List.range 8).foldl (fun m g => if lane (Tab.get 0 w.pred g) e.lane then m + 2 ^ g else m) 0)
    readsSince := w.readsSince }

/-- The state after a lane has run: what it shares with the wave as it left it, and its own copy. s is the wave's state
before, t the view after. -/
def laneBack (s : State) (e : EjLane) (t : State) : State :=
  { t with
    lane := none
    w := { s.w with
      keys := t.w.keys, astat := t.w.astat, gone := t.w.gone, stack := t.w.stack
      ejected := t.w.ejected.map (fun x => if x.lane = e.lane then laneAfter x t.w else x) } }

/-! ## Recall (R160, R168) -/

/-- Recall one lane, once nothing of it has still to complete. A fault of the push is left for the wave's next instruction, and
the lane stays on its thread (Table 6-5). -/
def recallLane (e : EjLane) (s : State) : State :=
  if laneQuiet s e then
    match recallUnder e.depth [e] s with
    | .ok t => t
    | .error t => recallFault [e] t s
  else s

/-- Recall a lane for a window violation, which the wave takes when it serves the entry (R160). -/
def recallWindow (e : EjLane) (reg : Nat) (s : State) : State :=
  let t := recallLane e s
  if t.w.ejected.any (fun x => x.lane == e.lane) then t
  else { t with w := { t.w with winTraps := t.w.winTraps ++ [(e.lane, e.pc, reg)] } }

/-- The window violation due at the wave's next instruction: its lane is alone active at its pc (R160). -/
def windowDue (s : State) : Option (Nat × Pc × Nat) :=
  s.w.winTraps.find? (fun x => em s == BitVec.twoPow 96 x.1 && x.2.1 == s.w.pc)

/-- Take EJECTWIN for a recalled lane. -/
def takeWindow (x : Nat × Pc × Nat) (s : State) : State :=
  takeTrap { cause := causeEjectwin, detail := x.2.2 } { s with w := { s.w with winTraps := s.w.winTraps.erase x } }

end Sys2Proof.Machine
end

