-- ==== Sys2Proof/Machine/Settle.lean ====
section
/-!
DEFINITION. The faults of open instructions, taken wherever their agents stand once nothing else of them is open (10 R250;
06 R160).
-/

namespace Sys2Proof.Machine

open Sys2Proof

/-- Settle the faults of one ejected lane of the wave in focus: it is recalled at its oldest faulting instruction, once a recall may write
the wave's stack area (06 R164). -/
def settleLane (l : Nat) (s : State) : State :=
  match s.w.ejected.find? (fun e => e.lane == l) with
  | none => s
  | some e =>
    let t := settle (laneView s e)
    if t.w.laneFault && areaReady s then recallLane { e with pc := t.w.pc } (laneBack s e { t with w := { t.w with laneFault := false } })
    else s

/-- Settle the faults of one agent. -/
def settleAgent (a : BitVec 64 × Option Nat) (s : State) : State :=
  withWave a.1 (match a.2 with
    | none => settle
    | some l => settleLane l) s

/-- Settle every agent with a fault at an open instruction. -/
def settleAll (s : State) : State :=
  (((s.ops.filter (fun o => o.fault.isSome)).map (fun o => (o.owner, o.lane))).eraseDups).foldl (fun t a => settleAgent a t) s

end Sys2Proof.Machine
end

