-- ==== Sys2Proof/Machine/KeyOps.lean ====
section
/-!
DEFINITION. The key instructions and the delivery of memberships (09 R230-R235; 15 R388-R390).
-/

namespace Sys2Proof.Machine

open Sys2Proof

/-- An instruction that acts once for the wave when its mask holds a lane that is no helper lane, and else only goes on
(15 R390, R399). -/
def onceForWave (s : State) (r : Res) : Out := if someNonHelper s then commit s r else .next (advance s)

/-! ## Tag sets (R230) -/

/-- close(k): open the next generation. -/
def closeSlot (k : Nat) (f : KeyFile) : KeyFile :=
  if k = 0 then f else { f with gen := Tab.put 0 f.gen k ((Tab.get 0 f.gen k + 1) % 4096) }

/-- Set slot k's tag set. -/
def putTags (k : Nat) (ts : List Tag) (f : KeyFile) : KeyFile :=
  if k = 0 then f else { f with tags := Tab.put [] f.tags k ts }

/-- Set taint(k) of an entry. -/
def setTaint (k : Nat) (b : Bool) (e : FaultEntry) : FaultEntry :=
  { e with slots := if b then e.slots ||| BitVec.twoPow 16 k else e.slots &&& ~~~(BitVec.twoPow 16 k) }

/-- taint(k) of an entry for a key named as a source: k0 contributes nothing. -/
def sourceTaint (k : Nat) (e : FaultEntry) : Bool := k != 0 && taints e k

/-- Change the key file. -/
def withKeys (s : State) (f : KeyFile → KeyFile) : State := { s with w := { s.w with keys := f s.w.keys } }

/-- KCLR (R230). -/
def execKclr (k : BitVec 4) (s : State) : Out :=
  onceForWave s (.ok (advance (
    if k = 0 then s
    else withKeys s (fun f =>
      let g := putTags k.toNat [] (closeSlot k.toNat f)
      { g with faults := g.faults.map (setTaint k.toNat false) }))))

/-- KJOIN as it issues: the union is taken as the sets stand, and the slots are closed. -/
def joinIssue (s : State) (kd ka kb : Nat) : List Tag × State :=
  (((tagsOf s.w ka ++ tagsOf s.w kb).eraseDups), withKeys s (fun f => closeSlot kd (closeSlot kb (closeSlot ka f))))

/-- The key file once the union, less drained tags, goes into kd. -/
def joinKeys (u : List Tag) (kd ka kb : Nat) (f : KeyFile) : KeyFile :=
  let g := putTags kd u f
  { g with faults := g.faults.map (fun e => setTaint kd (sourceTaint ka e || sourceTaint kb e) e) }

/-- KJOIN goes on once at most 8 tags of its union are not drained, and waits until then. -/
def joinWhen (u : List Tag) (kd ka kb : Nat) (s : State) : State :=
  let now := u.filter (tagBusy s s.w)
  if now.length ≤ 8 then advance (wake (withKeys s (joinKeys now kd ka kb))) else hold s (.join u)

/-- KJOIN (R230); a destination of k0 has no effect. -/
def execKjoin (kd ka kb : BitVec 4) (s : State) : Out :=
  onceForWave s (.ok (
    if kd = 0 then advance s
    else
      match s.w.status with
      | .waiting (.join u) => joinWhen u kd.toNat ka.toNat kb.toNat s
      | _ =>
        let x := joinIssue s kd.toNat ka.toNat kb.toNat
        joinWhen x.1 kd.toNat ka.toNat kb.toNat x.2))

/-- The key file after KFORK kd, ks (R230). -/
def forkKeys (s : State) (kd ks : Nat) (f : KeyFile) : KeyFile :=
  let u := tagsOf s.w ks
  let g := putTags kd u (closeSlot kd (closeSlot ks f))
  { g with faults := g.faults.map (fun e => setTaint kd (sourceTaint ks e) e) }

/-- KFORK (R230); a destination of k0 has no effect. -/
def execKfork (kd ks : BitVec 4) (s : State) : Out :=
  onceForWave s (.ok (advance (if kd = 0 then s else withKeys s (forkKeys s kd.toNat ks.toNat))))

/-! ## Waiting (R231) -/

/-- The members a wait is for, and its scope: as they stood at its issue. -/
def waitSet (s : State) (k : Option Nat) (sc : Nat) : List Nat × Nat :=
  match s.w.status with
  | .waiting (.members _ sc ids) => (ids, sc)
  | _ => (match k with
    | some k => membersOf s s.w k
    | none => ownMembers s s.w, sc)

/-- Wait for a key's members, or every slot's, then go on; a due fault entry is reported at once (R231, R235). -/
def waitKeys (s : State) (k : Option Nat) (sc : Nat) (go : State → Res) : Res :=
  let x := waitSet s k sc
  match entryToTake s.w k x.1 with
  | some e => .error (entryTrap e)
  | none => if allPerformed s s.w x.2 x.1 then go (wake s) else .ok (hold s (.members k x.2 x.1))

/-- KWAIT (R231). -/
def execKwait (k : BitVec 4) (s : State) : Out :=
  onceForWave s (do
    checkScope s
    waitKeys s (some k.toNat) (scope s) (fun t => .ok (advance t)))

/-- A KSEND to another module was not acknowledged in time, and this FENCE reports it (02 R56). -/
def fenceOverdue (s : State) : Bool := s.w.ksendOverdue && scope s == 5 && someNonHelper s

/-- FENCE (R231; 02 R56). One of an ejected lane recalls the lane, which then takes the trap in the wave (06 R160). -/
def execFence (s : State) : Out :=
  if fenceOverdue s then commit { s with w := { s.w with ksendOverdue := s.lane.isSome } } (.error (trapOf causeNoroute 3))
  else onceForWave s (do
    checkScope s
    waitKeys s none (scope s) (fun t => .ok (advance t)))

/-- KARR: wait until the arrival bit is set and clear it (R234). -/
def execKarr (k : BitVec 4) (s : State) : Out :=
  onceForWave s (do
    checkScope s
    .ok (
      if k = 0 then advance s
      else if s.w.keys.arrival.getLsbD k.toNat then
        advance (wake (withKeys s (fun f => { f with arrival := f.arrival &&& ~~~(BitVec.twoPow 16 k.toNat) })))
      else hold s (.arrival k.toNat)))

/-! ## KSTAT (R232) -/

/-- The snapshot of Table 9-3. -/
def kstatValue (s : State) (k : Nat) : Nat :=
  if k = 0 then min 65535 (ownMembers s s.w).length + (if s.w.keys.faults.isEmpty then 0 else 2 ^ 21)
  else
    min 65535 ((membersOf s s.w k).countP (fun id => !performedAt s s.w (scope s) id)) +
      (tagsOf s.w k).length % 16 * 2 ^ 16 + (if s.w.keys.arrival.getLsbD k then 2 ^ 20 else 0) +
      (if s.w.keys.faults.any (fun e => taints e k) then 2 ^ 21 else 0)

/-- KSTAT (R232). -/
def execKstat (d : BitVec 6) (k : BitVec 4) (s : State) : Out :=
  onceForWave s (do
    checkScope s
    .ok (advance (sset s d.toNat (BitVec.ofNat 32 (kstatValue s k.toNat)))))

/-! ## KSEND (R233, R234) -/

/-- Every wave, resident, or saved in the record of a group that is not resident. -/
def everyWave (s : State) : List Wave :=
  allWaves s ++ (s.records.filter (fun r => !resident s r.handle)).flatMap (fun r => match r.saved with
    | some g => g.peers
    | none => [])

/-- The recipient of a delivery: a wave of that name that has not executed EXIT. -/
def recipient (s : State) (name : BitVec 64) : Option Wave :=
  (everyWave s).find? (fun w => w.name == name && w.status != .exited)

/-- The wave of that name is the recipient. -/
def takesName (name : BitVec 64) (w : Wave) : Bool := w.name == name && w.status != .exited

/-- Put a delivery in the queue of the wave with a name. -/
def enqueue (name : BitVec 64) (d : Delivery) (s : State) : State :=
  mapWaves (fun w => if takesName name w then { w with keys := { w.keys with queue := w.keys.queue ++ [d] } } else w) s

/-- A delivery can be applied: its union holds at most 8 tags and its fault entries find room (R234, R235). -/
def applicable (s : State) (w : Wave) (d : Delivery) : Bool :=
  decide ((unionTags s w (tagsOf w d.slot) d.tags).length ≤ 8) && decide (w.keys.faults.length + d.faults.length ≤ 4)

/-- The first delivery that can be applied with none to its slot before it. -/
def nextDelivery (s : State) (w : Wave) : List Delivery → List Nat → Option Delivery
  | [], _ => none
  | d :: ds, seen => if !seen.contains d.slot && applicable s w d then some d else nextDelivery s w ds (d.slot :: seen)

/-- Apply a delivery (R234). -/
def applyDelivery (s : State) (w : Wave) (d : Delivery) : Wave :=
  { w with keys := { (putTags d.slot (unionTags s w (tagsOf w d.slot) d.tags) w.keys) with
      faults := w.keys.faults ++ d.faults
      arrival := w.keys.arrival ||| BitVec.twoPow 16 d.slot
      queue := w.keys.queue.erase d } }

/-- Apply the next delivery of a wave, resident or saved; a fault entry that it brings may be due at a consume (R234, R235). -/
def deliveryStep (h : BitVec 64) (s : State) : State :=
  match waveAnywhere s h with
  | none => s
  | some w =>
    match nextDelivery s w w.keys.queue [] with
    | none => s
    | some d => markConsumers s (modWave h (fun x => applyDelivery s x d) s)

/-- Up to n deliveries of a wave that is not resident. -/
def deliverySteps (h : BitVec 64) : Nat → State → State
  | 0, s => s
  | n + 1, s => if resident s h then s else deliverySteps h n (deliveryStep h s)

/-- Apply the deliveries of a wave that is not resident, as its record takes them; the arrival bit is written into its section
(04 R112). -/
def deliverSaved (h : BitVec 64) (n : Nat) (s : State) : State := followSaved (deliverySteps h n s) s

/-- An earlier delivery of the sender to the same wave is held (R234). -/
def deliveryWaits (s : State) (o : Op) (name : BitVec 64) : Bool :=
  s.ops.any (fun p => decide (p.id < o.id) && p.owner == o.owner && match p.kind with
    | .ksend n _ _ _ false => n == name
    | _ => false)

/-- A delivery within the module: discarded without a live recipient, accepted while its queue has room and none of its sender is held
before it, else held (R234). -/
def deliver (o : Op) (s : State) : State :=
  match o.kind with
  | .ksend name slot tags faults _ =>
    match recipient s name with
    | none => completeOp o s
    | some w =>
      if w.keys.queue.length < 16 ∧ !deliveryWaits s o name then
        deliverSaved w.handle 16
          (completeOp o (enqueue name { slot := slot, tags := tags, faults := faults, op := o.id } s))
      else s
  | _ => s

/-- A delivery from another module: it holds no member any more, and is held there while the recipient's queue is full
(02 R56, R57; log 41). -/
def deliverIn (name : BitVec 64) (slot : Nat) (faults : List FaultEntry) (s : State) : Option State :=
  let fs := faults.map (fun e => { e with slots := BitVec.twoPow 16 slot })
  match recipient s name with
  | none => some s
  | some w =>
    if w.keys.queue.length < 16 then
      some (deliverSaved w.handle 16
        (enqueue name { slot := slot, tags := [], faults := fs, op := s.nextOp } { s with nextOp := s.nextOp + 1 }))
    else none

/-- The module field of a wave name (Table 9-4). -/
def nameModule (name : BitVec 64) : Nat := bits name.toNat 63 58

/-- KSEND to the sender's own name: KFORK into the named slot, and its arrival bit; one of k0 sets the bit alone (log 22). -/
def sendSelf (s : State) (ks kr : Nat) : State :=
  withKeys s (fun f =>
    let g := if ks = 0 then f else forkKeys s kr ks f
    { g with arrival := g.arrival ||| BitVec.twoPow 16 kr })

/-- KSEND as it issues: the snapshot is taken, the source closed, slot 0 joined, and a delivery within the module tried
at once (R234). -/
def sendKey (s : State) (name : BitVec 64) (ks kr : Nat) : State :=
  let fs := (s.w.keys.faults.filter (fun e => sourceTaint ks e)).map (fun e => { e with slots := BitVec.twoPow 16 kr })
  let remote := nameModule name != s.fab.module
  let s1 := withKeys s (closeSlot ks)
  let i : Issue := { kind := .ksend name kr (tagsOf s.w ks) fs remote, produce := 0, consume := 0
                     waits := if remote then membersOf s s.w ks else [], scope := scope s }
  let o := opOf s1 i
  let s2 := advance (issueOp s1 i)
  if remote then s2 else deliver o s2

/-- KSEND (R234; 15 R388). -/
def execKsend (a : Src) (ks kr : BitVec 4) (s : State) : Out :=
  if em s = 0 then .next (advance s)
  else commit s (do
    check (kr != 0) (trapOf causeIllop 1)
    check (match a with
      | .s _ => true
      | _ => false) (trapOf causeIllopnd 0)
    check (srcEven true a) (trapOf causeIllopnd 5)
    .ok (
      if !someNonHelper s then advance s
      else if srcScalar s true a = s.w.name then advance (sendSelf s ks.toNat kr.toNat)
      else sendKey s (srcScalar s true a) ks.toNat kr.toNat))

/-- DELIVERY_APPLY: the wave in focus applies a delivery of its queue. -/
def execDeliveryApply (s : State) : Out := .next (settleAll (deliveryStep s.w.handle s))

/-- Place the first held copy of a fault entry in the list of a wave that has room, tainting the slots that then hold
its tag (R235). -/
def placeHeld (s : State) (w : Wave) : Wave :=
  match w.keys.heldFaults with
  | [] => w
  | h :: rest =>
    if w.keys.faults.length < 4 then
      let w1 := { w with keys := { w.keys with
        faults := w.keys.faults ++ [{ h.entry with slots := taintMask w h.tag }], heldFaults := rest } }
      drainTag (s.ops.any (fun o => o.tag == some h.tag)) h.tag w1
    else w

/-- Place the first held copy of a wave, resident or saved; it may be due at a consume. -/
def heldStep (h : BitVec 64) (s : State) : State := markConsumers s (modWave h (placeHeld s) s)

/-- FAULT_COPY_PLACED: a held copy of the wave in focus is placed. -/
def execFaultCopyPlaced (s : State) : Out := .next (settleAll (heldStep s.w.handle s))

end Sys2Proof.Machine
end

