-- ==== Sys2Proof/Machine/Reduction.lean ====
section
/-!
DEFINITION. In-network reduction: contributions and the combining tree (02 R58-R60).
-/

namespace Sys2Proof.Machine

open Sys2Proof

/-! ## Combining (R60) -/

/-- A combined value, whether it saturated or overflowed to infinity, and whether a NaN was produced. -/
structure RedVal where
  val : Nat
  ovf : Bool
  nan : Bool

/-- Two integers of w bits: sum saturating, min, max, and, or, xor. -/
def redInt (w : Nat) (signed : Bool) (op : Nat) (a b : Nat) : RedVal :=
  let v (x : Nat) : Int := if signed then sext x w else (x : Int)
  match op with
  | 0 => let r := fitInt w signed true (v a + v b); { val := r.1, ovf := r.2 != 0, nan := false }
  | 1 => { val := if v b < v a then b else a, ovf := false, nan := false }
  | 2 => { val := if v a < v b then b else a, ovf := false, nan := false }
  | 3 => { val := Nat.land a b, ovf := false, nan := false }
  | 4 => { val := Nat.lor a b, ovf := false, nan := false }
  | _ => { val := Nat.xor a b, ovf := false, nan := false }

/-- Order of two floats of w bits that are no NaN, −0 below +0. -/
def floatKey (w x : Nat) : Int := if bit x (w - 1) then -((x % 2 ^ (w - 1) : Nat) : Int) - 1 else ((x % 2 ^ (w - 1) : Nat) : Int)

/-- The value is a NaN. -/
def isNanVal : Num.Val → Bool
  | .nan => true
  | _ => false

/-- Two floats: sum rounded RNE, min, max; a NaN gives the type's quiet NaN. -/
def redFloat (f : Num.Fmt) (w op a b : Nat) : RedVal :=
  if isNanVal (f.decode a) || isNanVal (f.decode b) then { val := f.nanCode, ovf := false, nan := true }
  else
    match op with
    | 0 =>
      let x := (Num.add 0 (f.decode a) (f.decode b)).1
      let r := Num.round f 0 false .arith x
      { val := r.1, ovf := r.2 &&& Num.fOvf != 0, nan := isNanVal x }
    | 1 => { val := if floatKey w b < floatKey w a then b else a, ovf := false, nan := false }
    | _ => { val := if floatKey w a < floatKey w b then b else a, ovf := false, nan := false }

/-- Combine element by element, n elements of w bits. -/
def redElems (f : Nat → Nat → RedVal) (w a b : Nat) : Nat → Nat → RedVal
  | _, 0 => { val := 0, ovf := false, nan := false }
  | i, n + 1 =>
    let x := f (elemAt w a i) (elemAt w b i)
    let r := redElems f w a b (i + 1) n
    { val := x.val * 2 ^ (w * i) + r.val, ovf := x.ovf || r.ovf, nan := x.nan || r.nan }

/-- Combine two contributions by type and operation. -/
def redPair (type op a b : Nat) : RedVal :=
  match type with
  | 0 => redInt 64 true op a b
  | 1 => redInt 64 false op a b
  | 2 => redElems (redInt 32 true op) 32 a b 0 2
  | 3 => redElems (redFloat Num.f32 32 op) 32 a b 0 2
  | _ => redElems (redFloat Num.bf16 16 op) 16 a b 0 4

/-- One level of the tree: adjacent pairs, an unpaired last operand passing up unchanged. So in a group of one member no pair is combined,
and its NaN is neither made the quiet NaN nor reported in the status: R60 says both "any NaN input" and "unchanged", and the model
follows the second, its choice (log 45). -/
def redLevel (type op : Nat) : List RedVal → List RedVal
  | a :: b :: rest =>
    let r := redPair type op a.val b.val
    { r with ovf := r.ovf || a.ovf || b.ovf, nan := r.nan || a.nan || b.nan } :: redLevel type op rest
  | xs => xs

/-- The tree over at most 2^n operands. -/
def redTree (type op : Nat) : Nat → List RedVal → RedVal
  | 0, xs => xs.headD { val := 0, ovf := false, nan := false }
  | n + 1, xs => redTree type op n (redLevel type op xs)

/-! ## Groups and rounds (R59, R61, R62) -/

/-- A reduction group. -/
def redGet (s : State) (g : Nat) : RedGroup := Tab.get {} s.fab.red g

/-- Set a reduction group. -/
def redPut (s : State) (g : Nat) (x : RedGroup) : State := { s with fab := { s.fab with red := Tab.put {} s.fab.red g x } }

/-- A contribution of a module to a round: accepted, or discarded and counted (R59). One from a module outside the member set is
discarded and counted too, the model's choice where R59's list is silent (log 42). Past its largest count the counter of discards goes on
at 0, the model's choice: R59 does not say that it stays (log 45). -/
def contribute (g module : Nat) (seq : Word) (value : BitVec 64) (s : State) : State :=
  let x := redGet s g
  if 256 ≤ g then s
  else if x.enable && seq == x.seq && x.members.getLsbD module && !x.contribs.any (fun c => c.1 == module) then
    redPut s g { x with contribs := x.contribs ++ [(module, value)] }
  else redPut s g { x with discards := x.discards + 1 }

/-- A store to region 2 that is no contribution is discarded and counted (R59). Beyond group 255 no discards field belongs to it,
and it is counted nowhere: the model's choice (log 42). -/
def discardStore (g : Nat) (s : State) : State :=
  if g < 256 then redPut s g { redGet s g with discards := (redGet s g).discards + 1 } else s

/-- The stores of one event to a sector of region 2 of this module: a contribution when they are exactly bytes [11:0]. -/
def reductionStore (cells : List (Nat × Byte)) (sec : Nat) (s : State) : State :=
  let here := cells.filter (fun c => c.1 / 32 == sec)
  let t : Tab Byte := Tab.putAll 0 [] (here.map (fun c => (c.1 % 32, c.2)))
  let exact := (List.range 32).all (fun i => here.any (fun c => c.1 % 32 == i) == decide (i < 12))
  let byte (i : Nat) : Byte := Tab.get 0 t i
  let g := paOffset (32 * sec) / 32
  if exact then
    contribute g s.fab.module (BitVec.ofNat 32 (numOf ((List.range 4).map (fun i => byte (8 + i)))))
      (BitVec.ofNat 64 (numOf ((List.range 8).map byte))) s
  else discardStore g s

/-- The bytes of a result record (R61). -/
def recordBytes (value : BitVec 64) (seq : Word) (status : Nat) : List Byte :=
  bytesOf 8 value.toNat ++ bytesOf 4 seq.toNat ++ bytesOf 4 status ++ bytesOf 16 0

/-- Members of a group, ascending. -/
def membersList (x : RedGroup) : List Nat := (List.range 64).filter (fun m => x.members.getLsbD m)

/-- The contributions of a round in ascending module order. -/
def orderedContribs (x : RedGroup) : List RedVal :=
  (membersList x).filterMap (fun m => (x.contribs.find? (fun c => c.1 == m)).map
    (fun c => { val := c.2.toNat, ovf := false, nan := false }))

/-- REDUCTION_CONTRIBUTION: a contribution of another module, or of this one, reaches the engine. -/
def execReductionContribution (group module : Nat) (seq : Word) (value : BitVec 64) (s : State) : Out :=
  .next (contribute group module seq value s)

end Sys2Proof.Machine
end

