-- ==== Sys2Proof/Machine/Perform.lean ====
section
/-!
DEFINITION. The performance of operations in flight: loads bind, atomics and stores take their place in coherence order,
memberships end (09 R228; 10 R239-R244; 13 R316; 01 R33-R35; 02 R47, R59).
-/

namespace Sys2Proof.Machine

open Sys2Proof

/-! ## Same-address program order (10 R244; 06 R162) -/

/-- The places of spans. -/
def spanPlaces (xs : List Span) : List Nat := xs.flatMap (·.places)

/-- What a state-space instruction reads of global memory, in the order of its check. -/
def steepReads (j : SteepJob) : List Span := j.a ++ (j.x ++ j.b ++ j.c).flatten ++ j.hIn

/-- What a state-space instruction writes of global memory. -/
def steepWrites (j : SteepJob) : List Span := j.y.flatten ++ j.hOut

/-- The bytes an operation reaches, and whether they are local. -/
def opPlaces (o : Op) : Bool × List Nat :=
  match o.kind with
  | .load loc _ _ _ accs => (loc, accs.flatMap (·.bytes))
  | .store loc cells => (loc, cells.map (·.1))
  | .atomic _ n _ _ _ _ items => (false, items.flatMap (fun x => (List.range n).map (x.addr + ·)))
  | .stateOut glob _ _ => (false, glob.map (·.1))
  | .stream j => (false, j.todo.flatMap (·.places))
  | .steep j => (false, spanPlaces (steepReads j ++ steepWrites j))
  | _ => (false, [])

/-- Two operations reach a common byte. -/
def meet (o p : Op) : Bool := (opPlaces o).1 == (opPlaces p).1 && (opPlaces o).2.any (fun a => (opPlaces p).2.contains a)

/-- An earlier operation still stands in the way of a load of the same bytes: one that is not bound, unless it has met a fault (R250), or
a store that is not accepted. -/
def blocksLoad (p : Op) : Bool :=
  p.fault.isNone && match p.kind with
  | .load .. => true
  | .atomic .. => true
  | .store loc _ => loc || p.done == 0
  | _ => false

/-- An earlier operation still stands in the way of a write of the same bytes. -/
def blocksWrite (p : Op) : Bool :=
  match p.kind with
  | .load .. => true
  | .atomic .. => true
  | .store .. => decide (p.done < 5)
  | _ => false

/-- No earlier operation of the wave on the same bytes stands in the way. -/
def inOrder (s : State) (blocks : Op → Bool) (o : Op) : Bool := s.ops.all (fun p => !(blocks p && before p o && meet p o))

/-- A store of its wave stands in the store queue and is seen by a load: it comes before it in program order, or had been accepted, and so
performed at wave scope, when the load issued (R241, R242). -/
def queuedFor (o p : Op) : Bool :=
  match p.kind with
  | .store false _ => p.done != 0 && decide (p.done < 5) && (before p o || (p.owner == o.owner && p.accepted.any (fun n => decide (n ≤ o.id))))
  | _ => false

/-- Of the stores in the queue that a load sees, no two that nothing orders reach its bytes: which of them comes later in coherence order
is settled before the load is bound. -/
def queueOrdered (s : State) (o : Op) : Bool :=
  let ps := s.ops.filter (fun p => queuedFor o p && meet p o)
  ps.all (fun p => ps.all (fun q => p.id == q.id || before p q || before q p || !meet p q))

/-- Memory as a load of the wave sees it: with the stores of its wave in the store queue. -/
def loadView (s : State) (o : Op) : State :=
  s.ops.foldl (fun t p =>
    match p.kind with
    | .store false cells => if queuedFor o p then memWrite t cells else t
    | _ => t) s

/-! ## Coherence of an access -/

/-- The L1 that an operation's access to a line goes through: that of the core it was issued on, in a fused cluster the quarter of bits
[8:7] (07 R178); none for an ejected lane and for the state-space unit, which reads through the L2 (12 R307). -/
def opCore (s : State) (o : Op) (l : Nat) : Option Nat :=
  match o.kind with
  | .steep _ | .stateOut .. => none
  | _ =>
    if o.lane.isSome then none
    else if s.coh.fused.getLsbD (o.die * 8 + o.core / 4) then some (o.core / 4 * 4 + l % 4) else some o.core

/-- A load fills the caches of its die (08 R205), or reads an uncached line at its home (07 R194); it waits where a line cannot be
served yet, a link that it was sent over is down (02 R53), or host memory cannot be reached (02 Table 2-3). -/
def fillFor (s : State) (o : Op) (as : List Nat) : Option State :=
  if !linksUp s o || !hostReadFree s as then none
  else
    serveAll (fun l t =>
      let cls := Tab.get 0 o.cls l
      if o.uncached.contains l then uncachedReadServed o.die cls l t
      else readServed o.die (opCore s o l) cls as l t) ((linesOf as).filter cacheable) s

/-- A write takes its lines in M, through the caches of the core that it was issued on wherever its wave is now, or is performed at the
home where it is uncached (08 R202, R205; 07 R194); it waits as a load does. -/
def writeFor (s : State) (o : Op) (as : List Nat) : Option State :=
  if !linksUp s o then none
  else
    serveAll (fun l t =>
      let cls := Tab.get 0 o.cls l
      if o.uncached.contains l then uncachedWriteServed o.die cls l t
      else writeServed o.die (opCore s o l) cls as l t) ((linesOf as).filter cacheable) s

/-! ## Loads (13 R316; 01 R33) -/

/-- The POISON cause of one access. -/
def accPoison (v : State) (loc : Bool) (a : LaneAcc) : Option Nat :=
  if loc then poisonCause (((a.bytes.map (· / 32)).eraseDups).map (locDev v.g))
  else poisonCause ((readSectors a.bytes).map (sectorDev v))

/-- The byte that a load finds at a place. -/
def placeRead (v : State) (loc : Bool) (x : Nat) : Byte := if loc then locByte v.g x else loadByte v x

/-- An access less the bytes that earlier events of its load have bound (10 R247). -/
def unbound (got : List (Nat × Byte)) (a : LaneAcc) : LaneAcc :=
  { a with bytes := a.bytes.filter (fun x => !got.any (fun c => c.1 == x)) }

/-- The byte of a load at a place: bound by an earlier event, or as memory holds it. -/
def boundByte (v : State) (loc : Bool) (got : List (Nat × Byte)) (x : Nat) : Byte :=
  ((got.find? (fun c => c.1 == x)).map (·.2)).getD (placeRead v loc x)

/-- The words a load delivers for one access: zero for a helper lane whose access faults (05 R132). -/
def accWords (v : State) (loc : Bool) (got : List (Nat × Byte)) (size : Nat) (signed : Bool) (a : LaneAcc) : List Word :=
  if a.bytes = [] ∨ (accPoison v loc (unbound got a)).isSome then List.replicate (max 1 (size / 4)) 0
  else
    let bs := a.bytes.map (boundByte v loc got)
    if size < 4 then [if signed then BitVec.ofInt 32 (sext (numOf bs) (8 * size)) else BitVec.ofNat 32 (numOf bs)]
    else (List.range (size / 4)).map (fun i => BitVec.ofNat 32 (numOf ((bs.drop (4 * i)).take 4)))

/-- Write word i of every lane's data to vector register d + i, for a wave or for its ejected lane. -/
def writeVec (o : Op) (d n : Nat) (vals : List (Nat × List Word)) (s : State) : State :=
  match o.lane with
  | none =>
    let m := maskOf (fun l => vals.any (fun x => x.1 == l))
    (List.range n).foldl (fun t i => vset t (d + i) m (fun l =>
      ((vals.find? (fun x => x.1 == l)).map (fun x => x.2.getD i 0)).getD 0)) s
  | some l =>
    { s with w := { s.w with ejected := s.w.ejected.map (fun e =>
        if e.lane = l then { e with win := (List.range n).foldl (fun w i =>
          Tab.put 0 w (d + i) (((vals.find? (fun x => x.1 == l)).map (fun x => x.2.getD i 0)).getD 0)) e.win } else e) } }

/-- Write what a load delivers to its destination (15 R382-R384; 16 R421). -/
def writeDst (o : Op) (dst : LoadDst) (size : Nat) (vals : List (Nat × List Word)) (s : State) : State :=
  match dst with
  | .vec d => writeVec o d (max 1 (size / 4)) vals s
  | .line d => writeVec o d 32 vals s
  | .scal d =>
    match vals with
    | (_, w0 :: w1 :: _) :: _ => sset64 s d (w1 ++ w0)
    | (_, w0 :: _) :: _ => sset s d w0
    | _ => s
  | .tile x =>
    let rows := vals.filter (fun v => decide (v.1 < 96))
    let sides := vals.filter (fun v => decide (96 ≤ v.1))
    let w := xputAll s.w x (rows.flatMap (fun v => v.2.mapIdx (fun i q => (32 * v.1 + i, q))))
    { s with w := sidePutAll w x (sides.map (fun v => (v.1 - 96, v.2.headD 0))) }

/-- The destination is scalar: the load acts once for the wave. -/
def scalarDst : LoadDst → Bool
  | .scal _ => true
  | _ => false

/-- The lanes of a load that meet POISON and are no helper lanes, with their causes and addresses; a load that acts once for the wave
has none (05 R132). -/
def poisonLanes (s v : State) (o : Op) (dst : LoadDst) (loc : Bool) (accs : List LaneAcc) : List (Nat × LFault) :=
  accs.filterMap (fun a =>
    if o.lane.isNone && !scalarDst dst && lane s.w.hmask (a.lane % 96) then none
    else (accPoison v loc a).map (fun c => (a.lane % 96, { cause := causePoison, detail := c, addr := a.va })))

/-- Sectors that a load finds to mismatch take their poison pattern (01 R33). -/
def poisonRead (v : State) (loc : Bool) (accs : List LaneAcc) (s : State) : State :=
  let as := accs.flatMap (·.bytes)
  if loc then { s with g := (((as.map (· / 32)).eraseDups).filter (fun x => locDev v.g x != 0)).foldl locPoison s.g }
  else ((readSectors as).filter (fun x => sectorDev v x != 0)).foldl poison s

/-- A load in flight, of the wave in focus, binds and writes its destination, or faults, once its lines are served. -/
def bindLoad (o : Op) (loc : Bool) (size : Nat) (signed : Bool) (dst : LoadDst) (accs : List LaneAcc) (s : State) : State :=
  let left := accs.map (unbound o.got)
  match if loc then some s else fillFor s o (left.flatMap (·.bytes)) with
  | none => s
  | some s0 =>
    let v := loadView s0 o
    let s1 := poisonRead v loc left s0
    match lanesTrap (poisonLanes s v o dst loc left) with
    | some t =>
      modOp o.id (fun p => { p with
        fault := some { cause := t.cause, detail := t.detail, addr := t.addr, slots := 0 }
        faultLanes := if scalarDst dst then 0 else t.lanes.getD 0 }) s1
    | none =>
      completeOp o (writeDst o dst size (accs.map (fun a =>
        (a.lane, accWords v loc o.got (if 96 ≤ a.lane then 4 else size) signed a))) s1)

/-! ## Atomics (15 R387) -/

/-- The items of an atomic applied in ascending lane order: memory, old values and flags. -/
def applyItems (op : AtomOp) (n : Nat) (signed : Bool) (rm : Nat) (fl : Bool) :
    List AtomItem → State → State × List (Nat × Nat) × Word
  | [], s => (s, [], 0)
  | x :: xs, s =>
    let old := memNum s x.addr n
    let r := atomNew op (8 * n) signed rm fl old x.x x.c
    let q := applyItems op n signed rm fl xs (memWriteAt s x.addr (bytesOf n r.1))
    (q.1, (x.lane, old) :: q.2.1, r.2 ||| q.2.2)

/-- The virtual address at which a lane of an operation accesses. -/
def laneVa (o : Op) (l : Nat) : Nat := ((o.accs.find? (fun a => a.lane == l)).map (·.va)).getD 0

/-- The lanes of an atomic whose sectors are poisoned, with their addresses: every sector is verified before the first lane is
performed. -/
def atomicBad (s : State) (o : Op) (items : List AtomItem) : List (Nat × LFault) :=
  if o.olds ≠ [] then []
  else items.filterMap (fun x => (poisonCause [sectorDev s (x.addr / 32)]).map
    (fun c => (x.lane, ({ cause := causePoison, detail := c, addr := laneVa o x.lane } : LFault))))

/-- An atomic in flight, of the wave in focus: the lanes that earlier events have left are performed, and the old values of all
returned (10 R246). -/
def performAtomic (o : Op) (op : AtomOp) (n : Nat) (signed : Bool) (rm : Nat) (fl : Bool) (d : Nat)
    (items : List AtomItem) (s : State) : State :=
  match lanesTrap (atomicBad s o items) with
  | some t =>
    modOp o.id (fun p => { p with
      fault := some { cause := t.cause, detail := t.detail, addr := t.addr, slots := 0 }, faultLanes := t.lanes.getD 0 }) s
  | none =>
    match writeFor s o (items.map (·.addr)) with
    | none => s
    | some s0 =>
    let r := applyItems op n signed rm fl items s0
    let words (x : Nat) : List Word := if n = 8 then [BitVec.ofNat 32 x, BitVec.ofNat 32 (x / 2 ^ 32)] else [BitVec.ofNat 32 x]
    completeOp o (raiseFlags (writeVec o d (n / 4) ((o.olds ++ r.2.1).map (fun p => (p.1, words p.2))) r.1) (o.raised ||| r.2.2))

/-! ## Delivery of data -/

/-- The operation may bind now: its consume is satisfied and earlier accesses are out of the way. -/
def bindable (s : State) (o : Op) : Bool :=
  o.fault.isNone && waitsDone s o && match o.kind with
    | .load .. => inOrder s blocksLoad o && queueOrdered s o
    | .atomic .. => inOrder s blocksWrite o
    | _ => false

/-- A load or atomic delivers its data to its destination. -/
def returnData (o : Op) (s : State) : State :=
  if bindable s o then
    settleAll (withWave o.owner (fun t => match o.kind with
      | .load loc size signed dst accs => bindLoad o loc size signed dst accs t
      | .atomic op n signed rm fl d items => performAtomic o op n signed rm fl d items t
      | _ => t) s)
  else s

/-- LOAD_DATA_RETURN: the data of a load, or the old values of an atomic, reach the registers. -/
def execLoadDataReturn (op : Nat) (s : State) : Out :=
  .next (match findOp s op with
    | none => s
    | some o => returnData o s)

/-! ## Stores (10 R240) -/

/-- Change the group of a wave: resident, or saved in its record, whose bytes of local memory follow. -/
def modGroup (h : BitVec 64) (f : Group → Group) (s : State) : State :=
  if (findGroup s (groupOf h)).isSome then mapGroup (groupOf h) f s
  else
    match s.records.find? (fun r => r.handle == groupOf h) with
    | none => s
    | some r =>
      match r.saved with
      | none => s
      | some g => putSavedLocal r (f g)
          { s with records := s.records.map (fun x => if x.handle = groupOf h then { x with saved := some (f g) } else x) }

/-- The cells of region 2 reach the reduction engine, sector by sector (02 R59). -/
def reduceCells (cells : List (Nat × Byte)) (s : State) : State :=
  (sectorsOf cells).foldl (fun t sec => reductionStore cells sec t) s

/-- The cells of a store written, once the lines they take are served: memory and host memory, and the reduction engine. -/
def storeWrite (o : Op) (cells : List (Nat × Byte)) (s : State) : Option State :=
  let mem := cells.filter (fun c => paRegion c.1 != 2)
  (writeFor s o (mem.map (·.1))).map (fun t => reduceCells (cells.filter (fun c => paRegion c.1 == 2)) (memWrite t mem))

/-- The store reaches host memory, whose writes await the data-link acknowledgement (02 R47). -/
def toHost (cells : List (Nat × Byte)) : Bool := cells.any (fun c => paRegion c.1 == 1)

/-- A store lands where it is performed; what it has written of host memory, also by earlier events of its own, awaits its
acknowledgement. -/
def landStore (o : Op) (cells : List (Nat × Byte)) (s : State) : State :=
  match storeWrite o cells s with
  | none => s
  | some t => if toHost (o.got ++ cells) then setDone o 5 t else finishOp o t

/-- A store moves on by one point of performance (10 Table 10-2). -/
def advanceStore (o : Op) (loc : Bool) (cells : List (Nat × Byte)) (s : State) : State :=
  if o.fault.isSome || !waitsDone s o then s
  else if loc then
    if inOrder s blocksWrite o then
      finishOp o (modGroup o.owner (fun g => locStore g cells) s)
    else s
  else if o.done = 0 then (if cells = [] then finishOp o s else setDone o 1 s)
  else if o.done < 5 && inOrder s blocksWrite o && (cells.findSome? (fun c => noroute s c.1)).isNone then
    if resident s o.owner then withWave o.owner (landStore o cells) s else landStore o cells s
  else s

/-- MEMBER_PERFORMED: a store becomes performed at its next scopes; a KSEND's delivery is tried again. -/
def execMemberPerformed (op : Nat) (s : State) : Out :=
  .next (match findOp s op with
    | none => s
    | some o =>
      match o.kind with
      | .store loc cells => settleAll (advanceStore o loc cells s)
      | .ksend _ _ _ _ false => deliver o s
      | _ => s)

end Sys2Proof.Machine
end

