-- ==== Sys2Proof/Machine/Slots.lean ====
section
/-!
DEFINITION. The active and pending sets of a slot, which wave is ready, and whose turn it is to issue (04 R103-R106). At which instant a
wave issues is the model's order of turns (log 1).
-/

namespace Sys2Proof.Machine

open Sys2Proof

/-- The sets of a slot. -/
def slotGet (s : State) (die core slot : Nat) : SlotSet :=
  (s.slots.find? (fun x => x.die == die && x.core == core && x.slot == slot)).getD
    { die := die, core := core, slot := slot, active := [], pending := [] }

/-- Set the sets of a slot; an empty slot leaves the list. -/
def slotPut (x : SlotSet) (s : State) : State :=
  let rest := s.slots.filter (fun y => !(y.die == x.die && y.core == x.core && y.slot == x.slot))
  { s with slots := if x.active = [] ∧ x.pending = [] then rest else x :: rest }

/-- The sets without a wave. -/
def SlotSet.without (x : SlotSet) (h : BitVec 64) : SlotSet :=
  { x with active := x.active.erase h, pending := x.pending.erase h, age := x.age.erase h, ready := x.ready.erase h }

/-- A wave enters the active set, with the youngest age (R104). -/
def SlotSet.enterActive (x : SlotSet) (h : BitVec 64) : SlotSet := { x with active := x.active ++ [h], age := x.age ++ [h] }

/-- A wave leaves both sets of its slot. -/
def leaveSlots (h : BitVec 64) (s : State) : State :=
  { s with slots := (s.slots.map (·.without h)).filter (fun x => !(x.active.isEmpty && x.pending.isEmpty)) }

/-- A wave enters the pending set of a slot. -/
def enterPending (die core slot : Nat) (h : BitVec 64) (s : State) : State :=
  let t := leaveSlots h s
  let x := slotGet t die core slot
  slotPut { x with pending := x.pending ++ [h] } t

/-- A placed wave enters the active set until it is full, then the pending set (R103). -/
def enterSlot (die core slot : Nat) (h : BitVec 64) (s : State) : State :=
  let x := slotGet s die core slot
  slotPut (if x.active.length < 8 then x.enterActive h else { x with pending := x.pending ++ [h] }) s

/-- The wave takes part in its slot: it has neither ended nor yielded. -/
def inSlot (s : State) (h : BitVec 64) : Bool :=
  match findWave s h with
  | none => false
  | some w =>
    match w.status with
    | .exited => false
    | .yielded _ _ => false
    | _ => true

/-- The sets of a slot less the waves that have left them. -/
def slotNow (s : State) (die core slot : Nat) : SlotSet :=
  let x := slotGet s die core slot
  { x with active := x.active.filter (inSlot s), pending := x.pending.filter (inSlot s), age := x.age.filter (inSlot s)
           ready := x.ready.filter (inSlot s) }

/-- A wait that makes an active wave eligible to be swapped (R105). -/
def eligibleWait : Wait → Bool
  | .flags _ => true
  | .clauseFlags _ => true
  | .members .. => true
  | .join _ => true
  | .arrival _ => true
  | .gbar .. => true
  | .bwait .. => true
  | .claim => true
  | .rejoin => true
  | .phaseEnd => true
  | _ => false

/-- The next instruction of the wave in focus is held by a limit of its key file (09 R229), by a register that a long-latency
instruction has still to write, or by a flag's count (13 R315, R317): waits that R105 counts. -/
def issueStalled (s : State) : Bool :=
  match running s with
  | none => false
  | some c =>
    match wordAt s c with
    | .error _ => false
    | .ok w =>
      let i := instrOf w
      (em s != 0 || waveLevel i) && !(interlockFree s (regUse s i) && flagRoom s i && keyRoom s i && generationFree s i)

/-- The wave waits on something that R105 names, or its next instruction is held by what counts as such a wait. -/
def eligible (s : State) (h : BitVec 64) : Bool :=
  match findWave s h with
  | none => false
  | some w =>
    match w.status with
    | .waiting x => eligibleWait x
    | .ready => issueStalled (focusOn h s)
    | _ => false

/-! ## Readiness (R103) -/

/-- What the wave in focus does next needs no wait: a trap that is due, a reconvergence, code that can be fetched, or an instruction
whose operands and unit are free. -/
def nextFree (s : State) : Bool :=
  if s.w.stackDue.isSome && !s.w.trap.on then true
  else if curRpc s.w = some s.w.pc then true
  else
    match running s with
    | some c =>
      match wordAt s c with
      | .error _ => true
      | .ok w => (windowDue s).isSome || canIssue s (instrOf w)
    | none => fetchFree s

/-- The wave is ready. -/
def readyWave (s : State) (h : BitVec 64) : Bool := let t := focusOn h s; runnable t && nextFree t

/-- The wave in focus is the oldest ready one of its slot's active set, and issues next (R104). -/
def mayIssue (s : State) : Bool :=
  (slotNow s s.g.die s.g.core (s.w.idx % 4)).age.find? (readyWave s) == some s.w.handle

/-- The wave has issued: it is the youngest of its slot (R104). -/
def noteIssue (h : BitVec 64) (s : State) : State :=
  { s with slots := s.slots.map (fun x => if x.age.contains h then { x with age := x.age.erase h ++ [h] } else x) }

/-- The pending waves that are ready now, those that were before first (R106). -/
def nowReady (s : State) (x : SlotSet) : List (BitVec 64) :=
  let was := x.ready.filter (fun h => x.pending.contains h && readyWave s h)
  was ++ x.pending.filter (fun h => !was.contains h && readyWave s h)

/-- Keep the order in which pending waves became ready. -/
def noteReady (s : State) : State := { s with slots := s.slots.map (fun x => { x with ready := nowReady s x }) }

/-! ## Swaps (R105, R106) -/

/-- The wave passed the soft rejoin limit: it stays pending until its lanes are collected, or have left the join otherwise (06 R167). -/
def rejoinHeld (s : State) (h : BitVec 64) : Bool := (findWave s h).any (fun w => w.rejoinSoft && !(ejectedUnderTop w).isEmpty)

/-- A place of the active set is free for a pending wave: the slot serves its fill before any swap (R105). -/
def fillDue (s : State) (x : SlotSet) : Bool := decide (x.active.length < 8) && x.pending.any (fun h => !rejoinHeld s h)

/-- Exchange an active wave with a pending one: each enters the other set last. -/
def swapWaves (x : SlotSet) (a p : BitVec 64) : SlotSet :=
  let y := ((x.without a).without p).enterActive p
  { y with pending := y.pending ++ [a] }

/-- SWAP_ELIGIBLE: an active wave that waits is swapped with the ready pending wave that entered earliest (R105). Of several active waves
that are eligible the one that entered earliest goes, the model's choice (log 42). -/
def execSwapEligible (die core slot : Nat) (s : State) : Out :=
  .next (
    let x := slotNow s die core slot
    match x.active.find? (eligible s), x.pending.find? (readyWave s) with
    | some a, some p => if fillDue s x then s else slotPut (swapWaves x a p) s
    | _, _ => s)

/-- FORCED_SWAP: the pending wave that has been ready longest is swapped with the active wave that entered earliest (R106). -/
def execForcedSwap (die core slot : Nat) (s : State) : Out :=
  .next (
    let x := slotNow s die core slot
    match x.active.head?, (nowReady s x).head? with
    | some a, some p => if fillDue s x then s else slotPut (swapWaves x a p) s
    | _, _ => s)

/-- The sets of a slot with what has left them gone and every free place filled, in order of entry (R105). -/
def filledSlot (s : State) (x : SlotSet) : SlotSet :=
  let y := slotNow s x.die x.core x.slot
  (y.pending.filter (fun h => !rejoinHeld s h)).foldl (fun z p => if z.active.length < 8 then (z.without p).enterActive p else z) y

/-- What a step leaves to the slots: free places are filled at once, and the order in which pending waves became ready is kept. -/
def afterTurn (s : State) : State := noteReady { s with slots := s.slots.map (filledSlot s) }

/-- ACTIVE_SET_FILL: a free place goes to the pending wave that entered earliest, ready or not (R105). -/
def execActiveSetFill (die core slot : Nat) (s : State) : Out :=
  .next (
    let x := slotNow s die core slot
    match x.pending.find? (fun h => !rejoinHeld s h) with
    | none => s
    | some p => if x.active.length < 8 then slotPut ((x.without p).enterActive p) s else s)

end Sys2Proof.Machine
end

