-- ==== Sys2Proof/Machine/Control.lean ====
section
/-!
DEFINITION. The control instructions (14 R368-R375; 06 R151, R152, R156; 04 R121). The wave-level ones act and are
checked with any mask (06 Table 6-7).
-/

namespace Sys2Proof.Machine

open Sys2Proof

/-- NOP: no effect beyond its issue cycle (R372). -/
def execNop (s : State) : Out := run s (.ok s)

/-! ## EXIT (06 R156) -/

/-- An ejected lane exits: it frees its thread and leaves every mask (06 Table 6-3). One whose guard is false goes on (06 R156, R157). -/
def exitLane (l : Nat) (s : State) : Res :=
  if !lane (nonHelperMask s) l then .ok (advance s) else do
  let s1 ← dropLanes (BitVec.twoPow 96 l) s
  .ok { s1 with w := { s1.w with ejected := s1.w.ejected.filter (fun e => e.lane != l), status := .exited } }

/-- The wave's active non-helper lanes exit; with no lane left the wave pops, or is done. -/
def exitWave (s : State) : Res := do
  let m := nonHelperMask s
  let s1 ← if m = 0 then .ok s else dropLanes m s
  let s2 := setEm s1 (em s1 &&& ~~~m)
  if em s2 = 0 then
    if stackNow s2.w = [] ∧ !s2.w.ejected.isEmpty then .ok (advance s2) else popAfterExit (popBound s2.w) s2
  else .ok (advance s2)

/-- EXIT; in trap mode a double fault (04 R121). -/
def execExit (s : State) : Out :=
  commit s (
    match s.lane with
    | some l => exitLane l s
    | none => if s.w.trap.on then .error (trapOf causeIllop 0) else exitWave s)

/-! ## Waiting, mode, yielding -/

/-- WAITF: wait until every named flag is clear (R372). -/
def execWaitf (f : BitVec 12) (s : State) : Out :=
  .next (if flagsClear s.w f then advance (wake s) else hold s (.flags f))

/-- A source of MODE: constants are plain 32-bit integers, float codes their F32 patterns (R373). -/
def modeSrc (s : State) (c : Src) : Word :=
  match c with
  | .flt k => fltConstLane 0x0 k.toNat
  | .nat k => BitVec.ofNat 32 k.toNat
  | .neg k => BitVec.ofInt 32 (-1 - (k.toNat : Int))
  | .s r => sget s r.toNat
  | .idx k => BitVec.ofNat 32 (indexVal s k.toNat 0)
  | _ => 0

/-- MODE: (mode and not b) or (a and b), bits [31:22] staying zero (R373). -/
def execMode (a b : Src) (s : State) : Out :=
  commit s (do
    checkS 0 false [a, b]
    let v := (s.w.mode &&& ~~~(modeSrc s b) ||| modeSrc s a &&& modeSrc s b) &&& 0x3FFFFF
    .ok (advance { s with w := { s.w with mode := v } }))

/-- The slot of the wave in focus swaps it with the ready pending wave that entered earliest, if there is one; a free place is served
first (04 R105, R106). -/
def offerSlot (s : State) : State :=
  let x := slotNow s s.g.die s.g.core (s.w.idx % 4)
  match x.pending.find? (readyWave s) with
  | some p => if x.active.contains s.w.handle && !fillDue s x then slotPut (swapWaves x s.w.handle p) s else s
  | none => s

/-- YIELD: the slot is offered (R372); in trap mode a double fault. -/
def execYield (s : State) : Out :=
  run s (if s.w.trap.on then .error (trapOf causeIllop 0) else .ok (offerSlot s))

/-! ## Transfers of the whole wave (R369) -/

/-- BRS.z: to the target when sN = 0. -/
def execBrsZ (n : BitVec 6) (off : BitVec 16) (s : State) : Out :=
  .next (if sget s n.toNat = 0 then goto s (target s off.toInt) else advance s)

/-- BRS.nz: to the target when sN ≠ 0. -/
def execBrsNz (n : BitVec 6) (off : BitVec 16) (s : State) : Out :=
  .next (if sget s n.toNat = 0 then advance s else goto s (target s off.toInt))

/-- JMP. -/
def execJmp (off : BitVec 16) (s : State) : Out := .next (goto s (target s off.toInt))

/-- The link: pc + 4 zero-extended to 64 bits. -/
def linkValue (s : State) : BitVec 64 := (s.w.pc + 4).setWidth 64

/-- A link register that is 60 or 62 is reserved (R368); an odd one no pair (13 R323). -/
def checkLink (n : Nat) : Except Trap Unit := do
  check (n != 60 && n != 62) (trapOf causeIllop 1)
  check (n % 2 == 0) (trapOf causeIllopnd 5)

/-- CALL: link, and to the target. -/
def execCall (n : BitVec 6) (off : BitVec 16) (s : State) : Out :=
  commit s (do
    checkLink n.toNat
    .ok (goto (sset64 s n.toNat (linkValue s)) (target s off.toInt)))

/-- The pair of an address source: a scalar code, even (R368). -/
def pairSrc (s : State) : Src → Except Trap (BitVec 64)
  | .s r => if r.toNat % 2 = 0 then .ok (sget64 s r.toNat) else .error (trapOf causeIllopnd 5)
  | _ => .error (trapOf causeIllopnd 0)

/-- The code address of a register target: XLATE cause 0 when bits [63:56] are set (R368). -/
def jumpAddr (t : BitVec 64) : Except Trap Pc :=
  if bits t.toNat 63 56 = 0 then .ok (pcOfAddr t) else .error { cause := causeXlate, detail := 0, addr := t.toNat % 2 ^ 56 }

/-- RET. -/
def execRet (a : Src) (s : State) : Out :=
  commit s (do
    let t ← pairSrc s a
    let p ← jumpAddr t
    .ok (goto s p))

/-- The code names a scalar register. -/
def isScalarReg : Src → Bool
  | .s _ => true
  | _ => false

/-- The target of JR: the pair plus the sign-extended offset b. -/
def jrTarget (s : State) (a b : Src) : Except Trap Pc := do
  check (isScalarReg a && srcScalarOk b) (trapOf causeIllopnd 0)
  let t ← pairSrc s a
  jumpAddr (t + (srcLane s (ty s) b 0).signExtend 64)

/-- JR. -/
def execJr (a b : Src) (s : State) : Out :=
  commit s (do
    let p ← jrTarget s a b
    .ok (goto s p))

/-- JR.link: every source is read before the link is written. -/
def execJrLink (m : BitVec 6) (a b : Src) (s : State) : Out :=
  commit s (do
    check (m != 60 && m != 62) (trapOf causeIllop 1)
    check (isScalarReg a && srcScalarOk b) (trapOf causeIllopnd 0)
    check (m.toNat % 2 == 0) (trapOf causeIllopnd 5)
    let p ← jrTarget s a b
    .ok (goto (sset64 s m.toNat (linkValue s)) p))

/-- SLOOP: count down, and to the target while the count is not 0; s60-s63 are reserved (R368). -/
def execSloop (n : BitVec 6) (off : BitVec 16) (s : State) : Out :=
  commit s (do
    check (decide (n.toNat < 60)) (trapOf causeIllop 1)
    let v := sget s n.toNat - 1
    let s1 := sset s n.toNat v
    .ok (if v = 0 then advance s1 else goto s1 (target s off.toInt)))

/-! ## Dividing branches (R370, R371) -/

/-- Lanes of the mask that are not helper lanes: the lanes a branch divides. -/
def dividedLanes (s : State) : LaneMask := em s &&& ~~~(helperMask s)

/-- The taken side of BR. -/
def takenLanes (s : State) (inv : Bool) (g : Nat) : LaneMask :=
  nonHelperMask s &&& (if inv then ~~~(pget s g) else pget s g)

/-- Lanes that are taken to the following word are a transfer, and those that fall through to it go with them: the wave enters there, as
R153 has one target not divide (13 R313; log 45). -/
def brThrough (s : State) (taken : LaneMask) (t : Pc) : Option Pc :=
  if taken ≠ 0 ∧ t = s.w.pc + 4 then none else some (s.w.pc + 4)

/-- BR (R370). -/
def execBr (inv : Bool) (g : BitVec 3) (off : BitVec 16) (s : State) : Out :=
  if dividedLanes s = 0 then .next (advance s)
  else
    let t := takenLanes s inv g.toNat
    commit s (diverge (brThrough s t (target s off.toInt))
      (addSide (s.w.pc + 4) (dividedLanes s &&& ~~~t) (addSide (target s off.toInt) t [])) s)

/-- The index of JX in lane l, a 32-bit value. -/
def jxIndex (s : State) (a : Src) (l : Nat) : Nat := (srcLane s 0 a l).toNat

/-- The lanes whose index is at or beyond the count (06 R171) (log 24). -/
def jxBad (s : State) (a : Src) (count : Nat) : LaneMask :=
  maskOf (fun l => lane (nonHelperMask s) l && decide (count ≤ jxIndex s a l))

/-- A trap of the table's read, concerning the lanes it serves. -/
def withLanes {α : Type} (m : LaneMask) (r : Except Trap α) : Except Trap α :=
  match r with
  | .ok x => .ok x
  | .error t => .error { t with lanes := some m }

/-- The address of the table entry that lane l reads. -/
def jxEntry (s : State) (tbl : Nat) (a : Src) (l : Nat) : Nat := (tbl + 4 + 4 * jxIndex s a l) % 2 ^ 64

/-- The reads of the table's entries, lane by lane in ascending order. -/
def jxReads (s : State) (tbl : Nat) (a : Src) : List (Nat × Except Trap Nat) :=
  (lanesOf (nonHelperMask s)).map (fun l => (l, readNow s (jxEntry s tbl a l) 4))

/-- The trap of lanes whose reads fault: that of the lowest, concerning every lane with a fault of its cause (04 R458; log 23). -/
def readsTrap (rs : List (Nat × Except Trap Nat)) : Option Trap :=
  let ts := rs.filterMap (fun r => match r.2 with
    | .error t => some (r.1, t)
    | .ok _ => none)
  match ts with
  | [] => none
  | (_, t) :: _ => some { t with
      lanes := some (ts.foldl (fun m x => if x.2.cause = t.cause then m ||| BitVec.twoPow 96 x.1 else m) 0)
      bad := ts.flatMap (fun x => x.2.bad) }

/-- The sides of JX: each lane goes to the table plus four times its offset. -/
def jxSides (tbl : Nat) (rs : List (Nat × Except Trap Nat)) : List Side :=
  rs.foldl (fun xs r => match r.2 with
    | .ok o => addSide (BitVec.ofInt 56 ((tbl : Int) + 4 * sext o 32)) (BitVec.twoPow 96 r.1) xs
    | .error _ => xs) []

/-- The effect of JX with lanes to divide. -/
def jxEffect (s : State) (tbl : Nat) (a : Src) : Res :=
  if nonHelperMask s = 0 then .ok (advance s)
  else do
    let count ← withLanes (nonHelperMask s) (readNow s tbl 4)
    match lowLane (jxBad s a count) with
    | some l => .error { cause := causeTablerange, detail := l, lanes := some (jxBad s a count) }
    | none =>
      match readsTrap (jxReads s tbl a) with
      | some t => .error t
      | none =>
        let xs := jxSides tbl (jxReads s tbl a)
        let thru := if xs.any (fun x => x.pc == s.w.pc + 4) then none else some (s.w.pc + 4)
        diverge thru (addSide (s.w.pc + 4) (em s &&& ~~~(guardMask s)) xs)
          (nowReads (tbl :: (lanesOf (nonHelperMask s)).map (jxEntry s tbl a)) 4 s)

/-- JX (R371). -/
def execJx (d : BitVec 6) (a : Src) (s : State) : Out :=
  commit s (do
    check (srcNotReserved a) (trapOf causeIllopnd 0)
    check (srcHeld s a) (trapOf causeIllopnd 1)
    check (d.toNat % 2 == 0) (trapOf causeIllopnd 5)
    if em s = 0 then .ok (advance s) else jxEffect s (alignDown (sget64 s d.toNat).toNat 4) a)

/-! ## JOIN.AT (06 R151, R152) -/

/-- JOIN.AT: push a join entry; on a Bivouac core only the pc advances. -/
def execJoinAt (l : BitVec 4) (e : Bool) (off : BitVec 18) (s : State) : Out :=
  commit s (
    if s.lane.isSome then .ok (advance s)
    else do
      check (!e || decide (l.toNat ≤ s.w.vblocks)) (trapOf causeIllopnd 1)
      let rpc := target s off.toInt
      let s1 ← pushEntry { kind := .join, mask := em s, pc := rpc, rpc := some rpc, live := l.toNat, eject := e } s
      .ok (advance s1))

end Sys2Proof.Machine
end

