-- ==== Sys2Proof/Machine/Barriers.lean ====
section
/-!
DEFINITION. Group barriers and transaction barriers (15 R391-R399; 10 R258-R261; 04 R91).
-/

namespace Sys2Proof.Machine

open Sys2Proof

/-! ## Group barriers (R392, R393) -/

/-- One arrival of the wave in focus at barrier n: it goes on if the generation ends, and else waits for its end. -/
def arriveGbar (n : Nat) (s : State) : State :=
  let gen := Tab.get 0 s.g.gbarGen n
  let t := settleBarrier { s with g := { s.g with gbarArr := Tab.put 0 s.g.gbarArr n (Tab.get 0 s.g.gbarArr n + 1) } } n
  if Tab.get 0 t.g.gbarGen n = gen then hold t (.gbar n gen) else advance (wake t)

/-- The consume of a group barrier: at group scope or the captured scope where wider; with an all-zero mask it is
empty. -/
def gbarConsume (s : State) (k : Nat) (go : State → Res) : Res :=
  if em s = 0 then go s else waitKeys s (some k) (max (scope s) 1) go

/-- GBAR: in trap mode a double fault (04 R121). -/
def execGbar (n : BitVec 2) (k : BitVec 4) (s : State) : Out :=
  if s.w.trap.on then .next (takeTrap (trapOf causeIllop 0) s)
  else
    match s.w.status with
    | .waiting (.gbar m gen) =>
      .next (if Tab.get 0 s.g.gbarGen m = gen then s else advance (wake s))
    | _ => commit s (do
        checkScope s
        gbarConsume s k.toNat (fun t => .ok (arriveGbar n.toNat t)))

/-- The wave has a stack entry or an ejected lane. -/
def diverged (w : Wave) : Bool := !waveDone w

/-- GBAR.PHASE: the wave arrives at the phase end, its pc at the following instruction; diverged it raises PHASEDIV
(R91), and in trap mode it is a double fault. -/
def execGbarPhase (k : BitVec 4) (s : State) : Out :=
  if s.w.trap.on then .next (takeTrap (trapOf causeIllop 0) s)
  else commit s (do
    checkScope s
    check (!diverged s.w) (trapOf causePhasediv 0)
    gbarConsume s k.toNat (fun t => .ok (hold (advance t) .phaseEnd)))

/-! ## The barrier object (10 Table 10-4) -/

/-- The fields of a transaction barrier. -/
structure Bar where
  phase : Nat
  reload : Nat
  arrivals : Nat
  sectors : Nat
  expected : Nat
  yielded : Nat

/-- Read a barrier. -/
def barGet (g : Group) (off : Nat) : Bar :=
  { phase := barField g off 3 0, reload := barField g off 15 4, arrivals := barField g off 27 16,
    sectors := barField g off 63 32, expected := barField g off 95 64, yielded := barField g off 127 96 }

/-- The 128 bits of a barrier (log 26). -/
def Bar.pack (b : Bar) : Nat :=
  b.phase % 16 + b.reload % 4096 * 2 ^ 4 + b.arrivals % 4096 * 2 ^ 16 + b.sectors % 2 ^ 32 * 2 ^ 32 +
    b.expected % 2 ^ 32 * 2 ^ 64 + b.yielded % 2 ^ 16 * 2 ^ 96

/-- A group by the handle of one of its waves, resident, or saved in its record. -/
def anyGroup (s : State) (h : BitVec 64) : Option Group :=
  match findGroup s (groupOf h) with
  | some g => some g
  | none => ((s.records.find? (fun r => r.handle == groupOf h)).bind (·.saved))

/-- The barrier of a group. -/
def barOf (s : State) (h : BitVec 64) (off : Nat) : Bar := barGet ((anyGroup s h).getD {}) off

/-- Write the barrier of a group. -/
def barPut (h : BitVec 64) (off : Nat) (b : Bar) (s : State) : State :=
  modGroup h (fun g => locPut g (cellsAt off (bytesOf 16 b.pack))) s

/-- A wave yielded on the barrier goes on at its continuation. -/
def wakeYielded (off : Nat) (w : Wave) : Wave :=
  match w.status with
  | .yielded o _ => if o = off then { w with status := .ready } else w
  | _ => w

/-- The waves of a yield list enter the pending set of their slots (10 R261); the section of one that is saved follows. -/
def wakeList (h : BitVec 64) (off yielded : Nat) (s : State) : State :=
  match anyGroup s h with
  | none => s
  | some g =>
    followSaved (((List.range 16).filter (fun i => bit yielded i)).foldl (fun t i =>
      let u := modWave (handleOf g i) (wakeYielded off) t
      if (findGroup u (groupOf h)).isSome then enterPending g.die g.core (i % 4) (handleOf g i) u else u) s) s

/-! ## Updates (10 R259) -/

/-- The advance of a barrier whose counts are zero. -/
def advanceBar (h : BitVec 64) (off : Nat) (s : State) : State :=
  let b := barOf s h off
  if b.arrivals = 0 ∧ b.sectors = 0 then
    wakeList h off b.yielded (barPut h off
      { b with phase := (b.phase + 1) % 16, arrivals := b.reload, sectors := b.expected, yielded := 0 } s)
  else s

/-- An arrival entry's chain is held no longer. -/
def freeChain (c : Option Nat) (s : State) : State :=
  match c with
  | none => s
  | some c => { s with chains := s.chains.map (fun x => if x.id = c then { x with holding := false } else x) }

/-- The held arrival is at this barrier. -/
def heldAt (h : BitVec 64) (off : Nat) (x : Held) : Bool := x.group == groupOf h && x.off == off

/-- After an advance, held arrivals are applied oldest first while pending arrivals are above zero. -/
def applyHeld (h : BitVec 64) (off : Nat) : Nat → State → State
  | 0, s => s
  | n + 1, s =>
    let b := barOf s h off
    if b.arrivals = 0 then s
    else
      match s.held.find? (heldAt h off) with
      | none => s
      | some x =>
        let t := freeChain x.chain { s with held := s.held.erase x }
        applyHeld h off n (advanceBar h off (barPut h off { b with arrivals := b.arrivals - 1 } t))

/-- What an update ends with: the advance, and after it the held arrivals. -/
def finishUpdate (h : BitVec 64) (off : Nat) (s : State) : State :=
  let b := barOf s h off
  if b.arrivals = 0 ∧ b.sectors = 0 then applyHeld h off s.held.length (advanceBar h off s) else s

/-- An update that adds n to pending sectors. -/
def updateSectors (h : BitVec 64) (off : Nat) (n : Int) (s : State) : State :=
  let b := barOf s h off
  finishUpdate h off (barPut h off { b with sectors := lowBits ((b.sectors : Int) + n) 32 } s)

/-- An arrival: held when pending arrivals are zero. -/
def updateArrive (h : BitVec 64) (off : Nat) (chain : Option Nat) (s : State) : State :=
  let b := barOf s h off
  if b.arrivals = 0 then
    match anyGroup s h with
    | none => s
    | some g =>
      finishUpdate h off { s with
        held := s.held ++ [{ die := g.die, core := g.core, group := groupOf h, off := off, chain := chain }]
        chains := s.chains.map (fun x => if some x.id = chain then { x with holding := true } else x) }
  else finishUpdate h off (barPut h off { b with arrivals := b.arrivals - 1 } s)

/-! ## The instructions (R395-R399) -/

/-- The barrier's local offset: XLATE cause 6 when its 16 bytes do not lie below the local size. -/
def barPlace (s : State) (a : Src) : Except Trap Nat :=
  let off := barrierOff (srcLane s (ty s) a 0).toNat
  if off + 16 ≤ s.g.desc.lsize then .ok off else .error { cause := causeXlate, detail := 6, addr := off }

/-- A barrier of the group in focus. -/
def barHere (s : State) (off : Nat) : Bar := barGet s.g off

/-- The handle the wave in focus acts under. -/
def ownGroup (s : State) : BitVec 64 := groupOf s.w.handle

/-- Discard the arrivals held for a barrier; a chain whose ARRIVE was held goes on (R396). -/
def discardHeld (h : BitVec 64) (off : Nat) (s : State) : State :=
  let xs := s.held.filter (heldAt h off)
  xs.foldl (fun t x => freeChain x.chain t) { s with held := s.held.filter (fun x => !heldAt h off x) }

/-- BINIT (R396). -/
def initBar (off arr exp : Nat) (s : State) : State :=
  let h := ownGroup s
  let y := (barHere s off).yielded
  let t := { s with g := { locPut s.g (cellsAt off (bytesOf 16 (Bar.pack
    { phase := 0, reload := arr, arrivals := arr, sectors := exp, expected := exp, yielded := 0 }))) with
      tbars := if s.g.tbars.contains off then s.g.tbars else off :: s.g.tbars } }
  discardHeld h off (wakeList h off y t)

/-- BINIT. -/
def execBinit (a b : Src) (s : State) : Out :=
  onceForWave s (do
    checkS 0 false [a]
    checkS 0 true [b]
    let off ← barPlace s a
    let v := (srcScalar s true b).toNat
    .ok (advance (initBar off (v % 4096) (v / 2 ^ 32) s)))

/-- BEXPECT. -/
def execBexpect (a b : Src) (s : State) : Out :=
  onceForWave s (do
    checkS 0 false [a, b]
    let off ← barPlace s a
    .ok (advance (updateSectors (ownGroup s) off ((srcLane s (ty s) b 0).toNat : Int) s)))

/-- BARRIVE: counted at once when its consume is satisfied, and else once it is (R397). -/
def execBarrive (a : Src) (k : BitVec 4) (s : State) : Out :=
  onceForWave s (do
    checkS 0 false [a]
    checkScope s
    let off ← barPlace s a
    let ids ← consumeAt s k.toNat
    let sc := max (scope s) 1
    .ok (if allPerformed s s.w sc ids then advance (updateArrive (ownGroup s) off none s)
      else advance (issueOp s
        { kind := .arrive (ownGroup s) off none, produce := 0, consume := k.toNat, waits := ids, scope := sc, member := false })))

/-- The phase operand. -/
def phaseArg (s : State) (b : Src) : Nat := (srcLane s (ty s) b 0).toNat % 16

/-- BWAIT; in trap mode a double fault. -/
def execBwait (a b : Src) (s : State) : Out :=
  onceForWave s (do
    check (!s.w.trap.on) (trapOf causeIllop 0)
    checkS 0 false [a, b]
    let off ← barPlace s a
    .ok (if (barHere s off).phase = phaseArg s b then hold s (.bwait off (phaseArg s b)) else advance (wake s)))

/-- BTEST. -/
def execBtest (d : BitVec 6) (a b : Src) (s : State) : Out :=
  onceForWave s (do
    checkS 0 false [a, b]
    let off ← barPlace s a
    .ok (advance (sset s d.toNat (if (barHere s off).phase = phaseArg s b then 0 else 1))))

/-- The continuation of YIELD.B: the following instruction, or the address a pair names. -/
def continuation (d : Nat) (p : Bool) (s : State) : Res :=
  if p then (jumpAddr (sget64 s d)).map (goto s) else .ok (advance s)

/-- Record the wave in the yield list; it leaves the sets of its slot (10 R261). -/
def yieldOn (off p : Nat) (s : State) : State :=
  let b := barHere s off
  leaveSlots s.w.handle { s with
    g := locPut s.g (cellsAt off (bytesOf 16 (Bar.pack { b with yielded := b.yielded ||| 2 ^ s.w.idx })))
    w := { s.w with status := .yielded off p } }

/-- YIELD.B: goes on at once when the phase has ended; in trap mode a double fault. Its pair bit concerns sd alone: the
offset in a is a 32-bit value (R395; log 14). -/
def execYieldB (d : BitVec 6) (p : Bool) (a b : Src) (s : State) : Out :=
  onceForWave s (do
    check (!s.w.trap.on) (trapOf causeIllop 0)
    checkS 0 false [a, b]
    checkS d.toNat p []
    let off ← barPlace s a
    let t ← continuation d.toNat p s
    .ok (if (barHere s off).phase = phaseArg s b then yieldOn off (phaseArg s b) t else t))

/-! ## Counting arrivals (10 R260) -/

/-- An arrival in flight may be counted: its consume is satisfied, and no 65th would be held on its core. -/
def countable (s : State) (o : Op) (h : BitVec 64) (off : Nat) : Bool :=
  o.fault.isNone && waitsDone s o && match anyGroup s h with
    | none => false
    | some g => decide (heldCount s g.die g.core < 64) || (barOf s h off).arrivals != 0

/-- Count an arrival in flight. -/
def countArrival (o : Op) (s : State) : State :=
  match o.kind with
  | .arrive h off chain => if countable s o h off then completeOp o (updateArrive h off chain s) else s
  | _ => s

/-- ARRIVAL_COUNTED. -/
def execArrivalCounted (op : Nat) (s : State) : Out :=
  .next (match findOp s op with
    | none => s
    | some o => settleAll (countArrival o s))

end Sys2Proof.Machine
end

