-- ==== Sys2Proof/Machine/Alu.lean ====
section
/-!
DEFINITION. Integer operations on elements of w bits (14 R345, R350-R357). Each takes the width, whether the type is
signed, mode.saturate, the operands a and b and the old destination d, and gives the result and its astat flags.
-/

namespace Sys2Proof.Machine.Alu

open Sys2Proof

/-- An element operation. -/
abbrev Op3 := Nat → Bool → Bool → Nat → Nat → Nat → Nat × Word

/-- The integer that w bits hold. -/
def val (w : Nat) (sg : Bool) (x : Nat) : Int := if sg then sext x w else ((x % 2 ^ w : Nat) : Int)

/-- a + b, saturating (Table 14-3). -/
def add : Op3 := fun w sg st a b _ => fitInt w sg st (val w sg a + val w sg b)
/-- a − b, saturating. -/
def sub : Op3 := fun w sg st a b _ => fitInt w sg st (val w sg a - val w sg b)
/-- Low bits of a × b, saturating. -/
def mul : Op3 := fun w sg st a b _ => fitInt w sg st (val w sg a * val w sg b)
/-- Bits [2w-1:w] of the exact product. -/
def mulh : Op3 := fun w sg _ a b _ => (lowBits ((val w sg a * val w sg b).fdiv (2 ^ w : Nat)) w, 0)
/-- a × b + d, saturating. -/
def mad : Op3 := fun w sg st a b d => fitInt w sg st (val w sg a * val w sg b + val w sg d)

/-- Quotient of R351. -/
def div : Op3 := fun w sg st a b _ =>
  if b % 2 ^ w = 0 then (2 ^ w - 1, Num.fIdiv)
  else if sg && val w sg b == -1 && a % 2 ^ w == 2 ^ (w - 1) then
    (if st then (2 ^ (w - 1) - 1, Num.fSat) else (2 ^ (w - 1), 0))
  else (lowBits ((val w sg a).tdiv (val w sg b)) w, 0)

/-- Remainder of R351. -/
def rem : Op3 := fun w sg _ a b _ =>
  if b % 2 ^ w = 0 then (a % 2 ^ w, Num.fIdiv) else (lowBits ((val w sg a).tmod (val w sg b)) w, 0)

/-- Bitwise operations. -/
def and : Op3 := fun _ _ _ a b _ => (Nat.land a b, 0)
def or : Op3 := fun _ _ _ a b _ => (Nat.lor a b, 0)
def xor : Op3 := fun _ _ _ a b _ => (Nat.xor a b, 0)
def not : Op3 := fun w _ _ a _ _ => (2 ^ w - 1 - a % 2 ^ w, 0)
/-- The source itself. -/
def mov : Op3 := fun w _ _ a _ _ => (a % 2 ^ w, 0)

/-- Shifts by b mod w. -/
def shl : Op3 := fun w _ _ a b _ => (a * 2 ^ (b % w) % 2 ^ w, 0)
def shr : Op3 := fun w _ _ a b _ => (a % 2 ^ w / 2 ^ (b % w), 0)
def sar : Op3 := fun w _ _ a b _ => (lowBits ((sext a w).fdiv (2 ^ (b % w) : Nat)) w, 0)

/-- Smaller and larger, by type. -/
def min : Op3 := fun w sg _ a b _ => (if val w sg a ≤ val w sg b then a % 2 ^ w else b % 2 ^ w, 0)
def max : Op3 := fun w sg _ a b _ => (if val w sg b ≤ val w sg a then a % 2 ^ w else b % 2 ^ w, 0)

/-- Leading zeros and set bits. -/
def clzOp : Op3 := fun w _ _ a _ _ => (clz a w, 0)
def popc : Op3 := fun w _ _ a _ _ => (popcount a w, 0)

/-- a when d is not zero, else b. -/
def sel : Op3 := fun w _ _ a b d => (if d % 2 ^ w = 0 then b % 2 ^ w else a % 2 ^ w, 0)

/-- Position and length of the field that b names (R352). -/
def fieldPos (b : Nat) : Nat := bits b 5 0
def fieldLen (w b : Nat) : Nat := Nat.min (bits b 14 8) w

/-- Bit p of a, past the top the sign or zero (R352). -/
def fieldBit (w : Nat) (sg : Bool) (a p : Nat) : Bool := if p < w then bit a p else sg && bit a (w - 1)

/-- Number of the bits f j for j below n. -/
def ofBits (f : Nat → Bool) : Nat → Nat
  | 0 => 0
  | n + 1 => (if f n then 2 ^ n else 0) + ofBits f n

/-- Field extraction (R352). -/
def bfe : Op3 := fun w sg _ a b _ =>
  let n := fieldLen w b
  let f := ofBits (fun j => fieldBit w sg a (fieldPos b + j)) n
  (if n = 0 then 0 else if sg then lowBits (sext f n) w else f, 0)

/-- Field insertion into d (R352). -/
def bfi : Op3 := fun w _ _ a b d =>
  let p := fieldPos b
  (ofBits (fun i => if p ≤ i ∧ i < p + fieldLen w b then bit a (i - p) else bit d i) w, 0)

/-- Comparisons give 1 or 0. -/
def cmpEq : Op3 := fun w _ _ a b _ => (if a % 2 ^ w = b % 2 ^ w then 1 else 0, 0)
def cmpNe : Op3 := fun w _ _ a b _ => (if a % 2 ^ w = b % 2 ^ w then 0 else 1, 0)
def cmpLt : Op3 := fun w _ _ a b _ => (if sext a w < sext b w then 1 else 0, 0)
def cmpLe : Op3 := fun w _ _ a b _ => (if sext a w ≤ sext b w then 1 else 0, 0)
def cmpLtu : Op3 := fun w _ _ a b _ => (if a % 2 ^ w < b % 2 ^ w then 1 else 0, 0)
def cmpLeu : Op3 := fun w _ _ a b _ => (if a % 2 ^ w ≤ b % 2 ^ w then 1 else 0, 0)

/-- Absolute value and negation, saturating. -/
def abs : Op3 := fun w sg st a _ _ => fitInt w sg st ((val w sg a).natAbs : Int)
def neg : Op3 := fun w sg st a _ _ => fitInt w sg st (-(val w sg a))

/-- Bit reversal of 32 bits. -/
def brev : Op3 := fun _ _ _ a _ _ => (ofBits (fun i => bit a (31 - i)) 32, 0)

/-- Funnel shift: bits [31:0] of ((a << 32) | d) >> (b mod 32). -/
def shf : Op3 := fun _ _ _ a b d => ((a % 2 ^ 32 * 2 ^ 32 + d % 2 ^ 32) / 2 ^ (b % 32) % 2 ^ 32, 0)

/-- Result byte i of VPRMT (R356). -/
def prmtByte (a b d i : Nat) : Nat :=
  let c := elemAt 4 d i
  let x := elemAt 8 (a % 2 ^ 32 + b % 2 ^ 32 * 2 ^ 32) (c % 8)
  if c ≥ 8 then (if x ≥ 128 then 255 else 0) else x

/-- Byte permutation by the nibbles of the old destination (R356). -/
def prmt : Op3 := fun _ _ _ a b d => (packElems 8 (prmtByte a b d) 0 4, 0)

/-- Carry-less product: exclusive or of b << i over the set bits i of a below n (R357). -/
def clmul (a b : Nat) : Nat → Nat
  | 0 => 0
  | n + 1 => if bit a n then Nat.xor (b * 2 ^ n) (clmul a b n) else clmul a b n

def clmulLo : Op3 := fun _ _ _ a b _ => (clmul a b 32 % 2 ^ 32, 0)
def clmulHi : Op3 := fun _ _ _ a b _ => (clmul a b 32 / 2 ^ 32, 0)

end Sys2Proof.Machine.Alu
end

