-- ==== Sys2Proof/Machine/VectorInt.lean ====
section
/-!
DEFINITION. The vector integer instructions (14 R342, R343, R345, R352-R357).
-/

namespace Sys2Proof.Machine

open Sys2Proof

/-- Type set A of Table 14-4: N32, I32, N16, I16, N8, I8. -/
def typeA (t : Nat) : Bool := t == 0x0 || t == 0x1 || t == 0x5 || t == 0x6 || t == 0x8 || t == 0x9
/-- Type set B: N32 and I32. -/
def typeB (t : Nat) : Bool := t == 0x0 || t == 0x1
/-- The signed types of VABS and VNEG. -/
def typeSigned (t : Nat) : Bool := t == 0x1 || t == 0x6 || t == 0x9

/-- One lane of an element operation under type t: the lane's word and its flags (R342). -/
def laneOp (f : Alu.Op3) (t : Nat) (st : Bool) (a b d : Nat) : Nat × Word :=
  let w := elemWidth t
  let r (i : Nat) := f w (Num.intSigned t) st (elemAt w a i) (elemAt w b i) (elemAt w d i)
  (packElems w (fun i => (r i).1) 0 (elemCount t), (List.range (elemCount t)).foldl (fun x i => x ||| (r i).2) 0)

/-- The state after a vector instruction has written vd in the active lanes, helpers among them, and the flags of the
active non-helper lanes (R343, 05 R143). -/
def vectorState (s : State) (d : Nat) (r : Nat → Nat × Word) : State :=
  raiseFlags (vset s d (activeMask s) (fun l => BitVec.ofNat 32 (r l).1)) (laneFlags (nonHelperMask s) (fun l => (r l).2))

/-- The result of an element operation in lane l. -/
def vectorLane (s : State) (f : Alu.Op3) (t : Nat) (d : Nat) (a b : Src) (l : Nat) : Nat × Word :=
  laneOp f t (sat s) (srcLane s t a l).toNat (srcLane s t b l).toNat (vget s d l).toNat

/-- A typed vector integer instruction with two sources. -/
def vectorTyped (f : Alu.Op3) (ok : Nat → Bool) (d : BitVec 7) (a b : Src) (s : State) : Out :=
  run s (do
    checkV s [a, b] (ok (ty s)) [d.toNat]
    .ok (vectorState s d.toNat (vectorLane s f (ty s) d.toNat a b)))

/-- A typed vector integer instruction with one source. -/
def vectorTyped1 (f : Alu.Op3) (ok : Nat → Bool) (d : BitVec 7) (a : Src) (s : State) : Out :=
  run s (do
    checkV s [a] (ok (ty s)) [d.toNat]
    .ok (vectorState s d.toNat (vectorLane s f (ty s) d.toNat a (.nat 0))))

/-- A vector instruction of type Any with two sources: constants are valued as under N32 (R343). -/
def vectorAny (f : Alu.Op3) (d : BitVec 7) (a b : Src) (s : State) : Out :=
  run s (do
    checkV s [a, b] true [d.toNat]
    .ok (vectorState s d.toNat (vectorLane s f 0 d.toNat a b)))

/-- A vector instruction of type Any with one source. -/
def vectorAny1 (f : Alu.Op3) (d : BitVec 7) (a : Src) (s : State) : Out :=
  run s (do
    checkV s [a] true [d.toNat]
    .ok (vectorState s d.toNat (vectorLane s f 0 d.toNat a (.nat 0))))

/-- VADD (Table 14-4). -/
def execVadd (d : BitVec 7) (a b : Src) (s : State) : Out := vectorTyped Alu.add typeA d a b s

/-- VSUB (Table 14-4). -/
def execVsub (d : BitVec 7) (a b : Src) (s : State) : Out := vectorTyped Alu.sub typeA d a b s

/-- VMUL (Table 14-4). -/
def execVmul (d : BitVec 7) (a b : Src) (s : State) : Out := vectorTyped Alu.mul typeA d a b s

/-- VMULH (Table 14-4). -/
def execVmulh (d : BitVec 7) (a b : Src) (s : State) : Out := vectorTyped Alu.mulh typeA d a b s

/-- VMAD (Table 14-4). -/
def execVmad (d : BitVec 7) (a b : Src) (s : State) : Out := vectorTyped Alu.mad typeA d a b s

/-- VSHL (Table 14-4). -/
def execVshl (d : BitVec 7) (a b : Src) (s : State) : Out := vectorTyped Alu.shl typeA d a b s

/-- VSHR (Table 14-4). -/
def execVshr (d : BitVec 7) (a b : Src) (s : State) : Out := vectorTyped Alu.shr typeA d a b s

/-- VSAR (Table 14-4). -/
def execVsar (d : BitVec 7) (a b : Src) (s : State) : Out := vectorTyped Alu.sar typeA d a b s

/-- VMIN (Table 14-4). -/
def execVmin (d : BitVec 7) (a b : Src) (s : State) : Out := vectorTyped Alu.min typeA d a b s

/-- VMAX (Table 14-4). -/
def execVmax (d : BitVec 7) (a b : Src) (s : State) : Out := vectorTyped Alu.max typeA d a b s

/-- VBFE (Table 14-4). -/
def execVbfe (d : BitVec 7) (a b : Src) (s : State) : Out := vectorTyped Alu.bfe typeB d a b s

/-- VBFI (Table 14-4). -/
def execVbfi (d : BitVec 7) (a b : Src) (s : State) : Out := vectorTyped Alu.bfi typeB d a b s

/-- VABS (Table 14-4). -/
def execVabs (d : BitVec 7) (a : Src) (s : State) : Out := vectorTyped1 Alu.abs typeSigned d a s

/-- VNEG (Table 14-4). -/
def execVneg (d : BitVec 7) (a : Src) (s : State) : Out := vectorTyped1 Alu.neg typeSigned d a s

/-- VAND (Table 14-4). -/
def execVand (d : BitVec 7) (a b : Src) (s : State) : Out := vectorAny Alu.and d a b s

/-- VOR (Table 14-4). -/
def execVor (d : BitVec 7) (a b : Src) (s : State) : Out := vectorAny Alu.or d a b s

/-- VXOR (Table 14-4). -/
def execVxor (d : BitVec 7) (a b : Src) (s : State) : Out := vectorAny Alu.xor d a b s

/-- VSHF (Table 14-4). -/
def execVshf (d : BitVec 7) (a b : Src) (s : State) : Out := vectorAny Alu.shf d a b s

/-- VSEL (Table 14-4). -/
def execVsel (d : BitVec 7) (a b : Src) (s : State) : Out := vectorAny Alu.sel d a b s

/-- VPRMT (Table 14-4). -/
def execVprmt (d : BitVec 7) (a b : Src) (s : State) : Out := vectorAny Alu.prmt d a b s

/-- VCLMUL.LO (Table 14-4). -/
def execVclmulLo (d : BitVec 7) (a b : Src) (s : State) : Out := vectorAny Alu.clmulLo d a b s

/-- VCLMUL.HI (Table 14-4). -/
def execVclmulHi (d : BitVec 7) (a b : Src) (s : State) : Out := vectorAny Alu.clmulHi d a b s

/-- VNOT (Table 14-4). -/
def execVnot (d : BitVec 7) (a : Src) (s : State) : Out := vectorAny1 Alu.not d a s

/-- VCLZ (Table 14-4). -/
def execVclz (d : BitVec 7) (a : Src) (s : State) : Out := vectorAny1 Alu.clzOp d a s

/-- VPOPC (Table 14-4). -/
def execVpopc (d : BitVec 7) (a : Src) (s : State) : Out := vectorAny1 Alu.popc d a s

/-- VBREV (Table 14-4). -/
def execVbrev (d : BitVec 7) (a : Src) (s : State) : Out := vectorAny1 Alu.brev d a s

/-- Sum and carry of VADDC in lane l (R354). -/
def addcLane (s : State) (a b : Src) (l : Nat) : Nat :=
  (srcLane s (ty s) a l).toNat + (srcLane s (ty s) b l).toNat + (if lane (pget s 7) l then 1 else 0)

/-- The state after VADDC: vd, and the carry in g7, in the active lanes (R354). -/
def addcState (s : State) (d : Nat) (a b : Src) : State :=
  let m := activeMask s
  let carry := maskOf (fun l => if lane m l then decide (2 ^ 32 ≤ addcLane s a b l) else lane (pget s 7) l)
  pset (vset s d m (fun l => BitVec.ofNat 32 (addcLane s a b l))) 7 carry

/-- VADDC: add with the carry held in g7; it ignores mode.saturate and sets no flag (R354). -/
def execVaddc (d : BitVec 7) (a b : Src) (s : State) : Out :=
  run s (do
    checkV s [a, b] (typeB (ty s)) [d.toNat]
    .ok (addcState s d.toNat a b))

/-- Write predicate g in the active lanes, helpers among them (R355, R367). -/
def predState (s : State) (g : Nat) (p : Nat → Bool) : State :=
  pset s g (maskOf (fun l => if lane (activeMask s) l then p l else lane (pget s g) l))

/-- The conditions of VCMP (R355). -/
def vcmpHolds (c : Nat) (sg : Bool) (a b : Nat) : Bool :=
  let x := Alu.val 32 sg a
  let y := Alu.val 32 sg b
  match c with
  | 0 => x == y
  | 1 => x != y
  | 2 => decide (x < y)
  | 3 => decide (x ≤ y)
  | 4 => decide (y < x)
  | _ => decide (y ≤ x)

/-- VCMP: conditions 6 to 15 are reserved (R355). -/
def execVcmp (c : BitVec 4) (g : BitVec 3) (a b : Src) (s : State) : Out :=
  run s (do
    check (decide (c.toNat < 6)) (trapOf causeIllop 1)
    checkV s [a, b] (typeB (ty s)) []
    .ok (predState s g.toNat (fun l => vcmpHolds c.toNat (Num.intSigned (ty s)) (srcLane s (ty s) a l).toNat
      (srcLane s (ty s) b l).toNat)))

end Sys2Proof.Machine
end

