-- ==== Sys2Proof/Machine/Float.lean ====
section
/-!
DEFINITION. The floating-point instructions (14 R346, R358-R361; 11 R272-R276) and the conversions (14 R362, R363;
11 R277-R279).
-/

namespace Sys2Proof.Machine

open Sys2Proof

/-! ## Checks -/

/-- The captured rounding code is assigned (05 R139). -/
def roundingOk (s : State) : Bool := decide (rnd s ≤ 4)

/-! ## F32 operations -/

/-- Round an exact result to F32 under the captured mode, keeping the flags of the operation. -/
def toF32 (s : State) (p : Num.Val × Word) : Nat × Word :=
  let q := Num.round Num.f32 (rnd s) (flush s) .arith p.1
  (q.1, q.2 ||| p.2)

/-- The F32 operand of a source in lane l, flushed under R274. -/
def f32Lane (s : State) (a : Src) (l : Nat) : Num.Val := Num.inF32 (flush s) (srcLane s 0x4 a l).toNat

/-- The F32 value of vd in lane l. -/
def f32Old (s : State) (d l : Nat) : Num.Val := Num.inF32 (flush s) (vget s d l).toNat

/-- An F32 instruction with two sources. usesRound tells whether it uses mode.rounding. -/
def float2 (usesRound : Bool) (r : State → Nat → Num.Val → Num.Val → Num.Val → Nat × Word) (d : BitVec 7) (a b : Src)
    (s : State) : Out :=
  run s (do
    checkV s [a, b] (ty s == 0x4 && (!usesRound || roundingOk s)) [d.toNat]
    .ok (vectorState s d.toNat (fun l => r s l (f32Lane s a l) (f32Lane s b l) (f32Old s d.toNat l))))

/-- An F32 instruction with one source. -/
def float1 (r : State → Num.Val → Nat × Word) (d : BitVec 7) (a : Src) (s : State) : Out :=
  run s (do
    checkV s [a] (ty s == 0x4 && roundingOk s) [d.toNat]
    .ok (vectorState s d.toNat (fun l => r s (f32Lane s a l))))

/-- FADD: round(a + b) (Table 14-5). -/
def execFadd (d : BitVec 7) (a b : Src) (s : State) : Out :=
  float2 true (fun s _ x y _ => toF32 s (Num.add (rnd s) x y)) d a b s

/-- FSUB: round(a − b) (Table 14-5). -/
def execFsub (d : BitVec 7) (a b : Src) (s : State) : Out :=
  float2 true (fun s _ x y _ => toF32 s (Num.add (rnd s) x y.neg)) d a b s

/-- FMUL: round(a × b) (Table 14-5). -/
def execFmul (d : BitVec 7) (a b : Src) (s : State) : Out :=
  float2 true (fun s _ x y _ => toF32 s (Num.mul x y)) d a b s

/-- FFMA: round(a × b + vd), one rounding (Table 14-5). -/
def execFfma (d : BitVec 7) (a b : Src) (s : State) : Out :=
  float2 true (fun s _ x y z => toF32 s (Num.fma (rnd s) x y z)) d a b s

/-- x < y for values that are not NaN, −0 below +0 where zeros is set. -/
def valLt (zeros : Bool) : Num.Val → Num.Val → Bool
  | .nan, _ => false
  | _, .nan => false
  | .inf a, .inf b => a && !b
  | .inf a, .fin .. => a
  | .fin .., .inf b => !b
  | .fin na ma ea, .fin nb mb eb =>
    let lo := min ea eb
    let x := Num.scaled na ma ea lo
    let y := Num.scaled nb mb eb lo
    decide (x < y) || (zeros && x == 0 && y == 0 && na && !nb)

/-- Bits of an exact F32 value. -/
def f32Bits (v : Num.Val) : Nat := (Num.round Num.f32 0 false .arith v).1

/-- The NaN rules of FMIN and FMAX around a choice of the smaller or larger (R359). -/
def minmax (pickFirst : Num.Val → Num.Val → Bool) (x y : Num.Val) : Nat × Word :=
  match x, y with
  | .nan, .nan => (Num.f32.nanCode, 0)
  | .nan, _ => (f32Bits y, 0)
  | _, .nan => (f32Bits x, 0)
  | _, _ => (f32Bits (if pickFirst x y then x else y), 0)

/-- FMIN (R359). -/
def execFmin (d : BitVec 7) (a b : Src) (s : State) : Out :=
  float2 false (fun _ _ x y _ => minmax (fun x y => !valLt true y x) x y) d a b s

/-- FMAX (R359). -/
def execFmax (d : BitVec 7) (a b : Src) (s : State) : Out :=
  float2 false (fun _ _ x y _ => minmax (fun x y => !valLt true x y) x y) d a b s

/-- The conditions of FCMP (R355). -/
def fcmpHolds (c : Nat) (x y : Num.Val) : Bool :=
  let uno := x == .nan || y == .nan
  let lt := valLt false x y
  let gt := valLt false y x
  match c with
  | 0 => !uno && !lt && !gt
  | 1 => uno || lt || gt
  | 2 => lt
  | 3 => !uno && !gt
  | 4 => gt
  | 5 => !uno && !lt
  | 6 => !uno
  | _ => uno

/-- FCMP: conditions 8 to 15 are reserved (R355). -/
def execFcmp (c : BitVec 4) (g : BitVec 3) (a b : Src) (s : State) : Out :=
  run s (do
    check (decide (c.toNat < 8)) (trapOf causeIllop 1)
    checkV s [a, b] (ty s == 0x4) []
    .ok (predState s g.toNat (fun l => fcmpHolds c.toNat (f32Lane s a l) (f32Lane s b l))))

/-- The class bit of an F32 pattern (R360). -/
def fclassBits (x : Nat) : Nat :=
  let ex := bits x 30 23
  let fr := bits x 22 0
  let neg := bit x 31
  if ex = 255 then (if fr ≠ 0 then 2 ^ 8 else if neg then 2 ^ 0 else 2 ^ 7)
  else if ex = 0 then (if fr = 0 then (if neg then 2 ^ 3 else 2 ^ 4) else if neg then 2 ^ 2 else 2 ^ 5)
  else if neg then 2 ^ 1 else 2 ^ 6

/-- FCLASS reads the bits as they are, whatever mode.flush holds (R360). -/
def execFclass (d : BitVec 7) (a : Src) (s : State) : Out :=
  run s (do
    checkV s [a] (ty s == 0x4) [d.toNat]
    .ok (vectorState s d.toNat (fun l => (fclassBits (srcLane s 0x4 a l).toNat, 0))))

/-- A value rounded to an integral one; no INX, the sign of zero kept (Table 14-5). -/
def frndVal (s : State) : Num.Val → Nat × Word
  | .fin n m e => (f32Bits (.fin n (Num.roundAt (rnd s) n m e 0).1 0), 0)
  | v => (f32Bits v, 0)

/-- FRND (Table 14-5). -/
def execFrnd (d : BitVec 7) (a : Src) (s : State) : Out := float1 frndVal d a s

/-- 1 ÷ a (R358, 11 Table 11-6). -/
def frcpVal (s : State) : Num.Val → Nat × Word
  | .nan => toF32 s (.nan, 0)
  | .inf n => toF32 s (.fin n 0 0, 0)
  | .fin n 0 _ => toF32 s (.inf n, Num.fDz)
  | .fin n (m + 1) e => toF32 s (Num.recip n (m + 1) e, 0)

/-- FRCP (Table 14-5). -/
def execFrcp (d : BitVec 7) (a : Src) (s : State) : Out := float1 frcpVal d a s

/-- 1 ÷ sqrt(a) (R358, 11 Table 11-6). -/
def frsqVal (s : State) : Num.Val → Nat × Word
  | .nan => toF32 s (.nan, 0)
  | .inf n => if n then toF32 s (.nan, Num.fInv) else toF32 s (.fin false 0 0, 0)
  | .fin n 0 _ => toF32 s (.inf n, Num.fDz)
  | .fin n (m + 1) e => if n then toF32 s (.nan, Num.fInv) else toF32 s (Num.rsqrtVal (m + 1) e, 0)

/-- FRSQ (Table 14-5). -/
def execFrsq (d : BitVec 7) (a : Src) (s : State) : Out := float1 frsqVal d a s

/-- sqrt(a); sqrt(−0) is −0 (R358). -/
def fsqrtVal (s : State) : Num.Val → Nat × Word
  | .nan => toF32 s (.nan, 0)
  | .inf n => if n then toF32 s (.nan, Num.fInv) else toF32 s (.inf false, 0)
  | .fin n 0 e => toF32 s (.fin n 0 e, 0)
  | .fin n (m + 1) e => if n then toF32 s (.nan, Num.fInv) else toF32 s (Num.sqrtVal (m + 1) e, 0)

/-- FSQRT (Table 14-5). -/
def execFsqrt (d : BitVec 7) (a : Src) (s : State) : Out := float1 fsqrtVal d a s

/-- 2^a (R358). -/
def fexp2Val (s : State) : Num.Val → Nat × Word
  | .nan => toF32 s (.nan, 0)
  | .inf n => if n then toF32 s (.fin false 0 0, 0) else toF32 s (.inf false, 0)
  | .fin n m e => toF32 s (Num.exp2Val n m e, 0)

/-- FEXP2 (Table 14-5). -/
def execFexp2 (d : BitVec 7) (a : Src) (s : State) : Out := float1 fexp2Val d a s

/-- log2(a) (R358, 11 Table 11-6). -/
def flog2Val (s : State) : Num.Val → Nat × Word
  | .nan => toF32 s (.nan, 0)
  | .inf n => if n then toF32 s (.nan, Num.fInv) else toF32 s (.inf false, 0)
  | .fin _ 0 _ => toF32 s (.inf true, Num.fDz)
  | .fin n (m + 1) e => if n then toF32 s (.nan, Num.fInv) else toF32 s (Num.log2Val (m + 1) e, 0)

/-- FLOG2 (Table 14-5). -/
def execFlog2 (d : BitVec 7) (a : Src) (s : State) : Out := float1 flog2Val d a s

/-- tanh(a) (R358). -/
def ftanhVal (s : State) : Num.Val → Nat × Word
  | .nan => toF32 s (.nan, 0)
  | .inf n => toF32 s (.fin n 1 0, 0)
  | .fin n 0 e => toF32 s (.fin n 0 e, 0)
  | .fin n (m + 1) e => toF32 s (Num.tanhVal n (m + 1) e, 0)

/-- FTANH (Table 14-5). -/
def execFtanh (d : BitVec 7) (a : Src) (s : State) : Out := float1 ftanhVal d a s

/-! ## Packed 16-bit operations (R361) -/

/-- The accepted types F16x2 and BF16x2. -/
def typeHalf (t : Nat) : Bool := t == 0xA || t == 0xB

/-- One element of a packed operation, rounded with subnormals kept. -/
def halfElem (s : State) (op : Num.Val → Num.Val → Num.Val → Num.Val × Word) (x y z : Nat) : Nat × Word :=
  let f := Num.fmtOf (ty s)
  let p := op (f.decode x) (f.decode y) (f.decode z)
  let q := Num.round f (rnd s) false .arith p.1
  (q.1, q.2 ||| p.2)

/-- A packed 16-bit instruction: each element separately. -/
def half2 (op : State → Num.Val → Num.Val → Num.Val → Num.Val × Word) (d : BitVec 7) (a b : Src) (s : State) : Out :=
  run s (do
    checkV s [a, b] (typeHalf (ty s) && roundingOk s) [d.toNat]
    let r (l i : Nat) := halfElem s (op s) (elemAt 16 (srcLane s (ty s) a l).toNat i)
      (elemAt 16 (srcLane s (ty s) b l).toNat i) (elemAt 16 (vget s d.toNat l).toNat i)
    .ok (vectorState s d.toNat (fun l => ((r l 0).1 + 2 ^ 16 * (r l 1).1, (r l 0).2 ||| (r l 1).2))))

/-- HADD2 (R361). -/
def execHadd2 (d : BitVec 7) (a b : Src) (s : State) : Out := half2 (fun s x y _ => Num.add (rnd s) x y) d a b s

/-- HMUL2 (R361). -/
def execHmul2 (d : BitVec 7) (a b : Src) (s : State) : Out := half2 (fun _ x y _ => Num.mul x y) d a b s

/-- HFMA2 (R361). -/
def execHfma2 (d : BitVec 7) (a b : Src) (s : State) : Out := half2 (fun s x y z => Num.fma (rnd s) x y z) d a b s

/-! ## Conversion (R362, R363) -/

/-- A conversion from src to dst uses mode.rounding: to a float other than M8, or from a float to an integer. -/
def convRounds (src dst : Nat) : Bool := (isFloat dst && dst != 0xE) || (isFloat src && !isFloat dst)

/-- The destination types of CVT: every one but N64, I64 and the reserved code. -/
def typeCvt (t : Nat) : Bool := t != 0x2 && t != 0x3 && t != 0x7

/-- Result of CVT in one lane: y in element 0, sign-extended for I8 and I16 (R362). -/
def cvtLane (s : State) (t j x : Nat) : Nat × Word :=
  let r := Num.convert (rnd s) (sat s) (flush s) t (ty s) (elemAt (elemWidth t) x j)
  if ty s = 0x6 ∨ ty s = 0x9 then (lowBits (sext r.1 (elemWidth (ty s))) 32, r.2) else r

/-- CVT: element j of a in type t to the captured type (R362). -/
def execCvt (d : BitVec 7) (a : Src) (t : BitVec 4) (j : BitVec 2) (s : State) : Out :=
  run s (do
    check (cvtTypeOk t && cvtIndexOk t j) (trapOf causeIllop 1)
    checkV s [a] (typeCvt (ty s) && (!convRounds t.toNat (ty s) || roundingOk s)) [d.toNat]
    .ok (vectorState s d.toNat (fun l => cvtLane s t.toNat j.toNat (srcLane s t.toNat a l).toNat)))

/-- The destination types of CVTPK. -/
def typePack (t : Nat) : Bool := decide (0xA ≤ t) && decide (t ≤ 0xE)

/-- Result of CVTPK in one lane (R363). -/
def cvtpkLane (s : State) (x y d : Nat) : Nat × Word :=
  let e0 := Num.convert (rnd s) (sat s) (flush s) 0x4 (ty s) x
  let e1 := Num.convert (rnd s) (sat s) (flush s) 0x4 (ty s) y
  if elemWidth (ty s) = 16 then (e1.1 * 2 ^ 16 + e0.1, e0.2 ||| e1.2)
  else (d % 2 ^ 16 * 2 ^ 16 + e1.1 * 2 ^ 8 + e0.1, e0.2 ||| e1.2)

/-- CVTPK: two F32 values into a packed type (R363). -/
def execCvtpk (d : BitVec 7) (a b : Src) (s : State) : Out :=
  run s (do
    checkV s [a, b] (typePack (ty s) && (!convRounds 0x4 (ty s) || roundingOk s)) [d.toNat]
    .ok (vectorState s d.toNat (fun l => cvtpkLane s (srcLane s (ty s) a l).toNat (srcLane s (ty s) b l).toNat
      (vget s d.toNat l).toNat)))

end Sys2Proof.Machine
end

