-- ==== Sys2Proof/Machine/CrossLane.lean ====
section
/-!
DEFINITION. Cross-lane and quad instructions, VRAND, and predicate instructions (14 R364-R367; 05 R131).
-/

namespace Sys2Proof.Machine

open Sys2Proof

/-! ## Quad exchange (R364) -/

/-- A quad instruction of type Any: vd[l] is a of the lane that pick names. -/
def quadMove (pick : Nat → Nat) (d : BitVec 7) (a : Src) (s : State) : Out :=
  run s (do
    checkV s [a] true [d.toNat]
    .ok (vset s d.toNat (activeMask s) (fun l => srcLane s 0 a (pick l))))

/-- QSWZ: a[base + bits(pattern, 2q+1, 2q)] (Table 14-6). -/
def execQswz (d : BitVec 7) (a : Src) (pat : BitVec 8) (s : State) : Out :=
  quadMove (fun l => l - l % 4 + elemAt 2 pat.toNat (l % 4)) d a s

/-- QBCAST: a[base + k] (Table 14-6). -/
def execQbcast (d : BitVec 7) (a : Src) (k : BitVec 2) (s : State) : Out :=
  quadMove (fun l => l - l % 4 + k.toNat) d a s

/-- A quad derivative: round(a[hi l] − a[lo l]), F32 only. -/
def quadDiff (hi lo : Nat → Nat) (d : BitVec 7) (a : Src) (s : State) : Out :=
  run s (do
    checkV s [a] (ty s == 0x4 && roundingOk s) [d.toNat]
    .ok (vectorState s d.toNat (fun l => toF32 s (Num.add (rnd s) (f32Lane s a (hi l)) (f32Lane s a (lo l)).neg))))

/-- QDX (Table 14-6). -/
def execQdx (d : BitVec 7) (a : Src) (s : State) : Out :=
  quadDiff (fun l => l - l % 2 + 1) (fun l => l - l % 2) d a s

/-- QDY (Table 14-6). -/
def execQdy (d : BitVec 7) (a : Src) (s : State) : Out :=
  quadDiff (fun l => l - l % 4 + l % 2 + 2) (fun l => l - l % 4 + l % 2) d a s

/-! ## Lane exchange (R365) -/

/-- The lane an index value names, bits [6:0]. -/
def laneIndex (x : Word) : Nat := bits x.toNat 6 0

/-- VSHFL: vd[l] := a[i] with i from b[l]; 0 when i ≥ 96 (Table 14-7). -/
def execVshfl (d : BitVec 7) (a b : Src) (s : State) : Out :=
  run s (do
    checkV s [a, b] true [d.toNat]
    .ok (vset s d.toNat (activeMask s) (fun l =>
      let i := laneIndex (srcLane s 0 b l)
      if i < 96 then srcLane s 0 a i else 0)))

/-- The code names a vector register. -/
def isVector : Src → Bool
  | .v _ => true
  | _ => false

/-- The code is a scalar register or a constant. -/
def srcScalarOrConst : Src → Bool
  | .s _ => true
  | .nat _ => true
  | .neg _ => true
  | .flt _ => true
  | _ => false

/-- VBALLOT: bit i is set when lane 32n + i is active, not a helper, and a ≠ 0 in it (Table 14-7). -/
def execVballot (d : BitVec 6) (a : Src) (n : BitVec 8) (s : State) : Out :=
  run s (do
    check (decide (n.toNat < 3)) (trapOf causeIllop 1)
    check (isVector a) (trapOf causeIllopnd 0)
    check (srcHeld s a) (trapOf causeIllopnd 1)
    .ok (sset s d.toNat (maskWord (maskOf (fun l => lane (nonHelperMask s) l && srcLane s 0 a l != 0)) n.toNat)))

/-- VREADL: sd := a[i] with i from b; 0 when i ≥ 96 (Table 14-7). -/
def execVreadl (d : BitVec 6) (a b : Src) (s : State) : Out :=
  run s (do
    check (isVector a && srcScalarOk b) (trapOf causeIllopnd 0)
    check (srcHeld s a) (trapOf causeIllopnd 1)
    let i := laneIndex (srcLane s 0 b 0)
    .ok (sset s d.toNat (if i < 96 then srcLane s 0 a i else 0)))

/-- VWRITEL: vd[i] := a with i from b, whether lane i is active or not (Table 14-7) (log 19). -/
def execVwritel (d : BitVec 7) (a b : Src) (s : State) : Out :=
  run s (do
    check (srcScalarOrConst a && srcScalarOrConst b) (trapOf causeIllopnd 0)
    check (vHeld s d.toNat) (trapOf causeIllopnd 1)
    let i := laneIndex (srcLane s 0 b 0)
    .ok (if i < 96 then vset s d.toNat (BitVec.twoPow 96 i) (fun _ => srcLane s 0 a 0) else s))

/-! ## VRAND (R366) -/

/-- One step of the generator. -/
def randStep (r : Rand) : Rand :=
  let t := r.x ^^^ (r.x <<< 11)
  { x := r.y, y := r.z, z := r.w, w := r.w ^^^ (r.w >>> 19) ^^^ t ^^^ (t >>> 8) }

/-- The draws of the lanes of m in ascending order from lane l on: the state left and the word of each lane. -/
def drawFrom (m : LaneMask) (r : Rand) : Nat → Nat → Rand × Tab Word
  | _, 0 => (r, [])
  | l, n + 1 =>
    if lane m l then
      let p := drawFrom m (randStep r) (l + 1) n
      (p.1, (l, (randStep r).w) :: p.2)
    else drawFrom m r (l + 1) n

/-- VRAND: each active non-helper lane draws in ascending order; a helper lane receives 0 and takes no step. -/
def execVrand (d : BitVec 7) (s : State) : Out :=
  run s (do
    check (vHeld s d.toNat) (trapOf causeIllopnd 1)
    let p := drawFrom (nonHelperMask s) s.w.rand 0 96
    let s1 := vset s d.toNat (activeMask s) (fun l => Tab.get 0 p.2 l)
    .ok { s1 with w := { s1.w with rand := p.1 } })

/-! ## Predicates (R367) -/

/-- The bit of a predicate source in lane l: index in [2:0], inverted by bit 3. -/
def predSrc (s : State) (p : BitVec 4) (l : Nat) : Bool := lane (pget s (p.toNat % 8)) l != bit p.toNat 3

/-- PAND (R367). -/
def execPand (g : BitVec 3) (pa pb : BitVec 4) (s : State) : Out :=
  run s (.ok (predState s g.toNat (fun l => predSrc s pa l && predSrc s pb l)))

/-- POR (R367). -/
def execPor (g : BitVec 3) (pa pb : BitVec 4) (s : State) : Out :=
  run s (.ok (predState s g.toNat (fun l => predSrc s pa l || predSrc s pb l)))

/-- PXOR (R367). -/
def execPxor (g : BitVec 3) (pa pb : BitVec 4) (s : State) : Out :=
  run s (.ok (predState s g.toNat (fun l => predSrc s pa l != predSrc s pb l)))

/-- PNOT (R367). -/
def execPnot (g : BitVec 3) (pa : BitVec 4) (s : State) : Out :=
  run s (.ok (predState s g.toNat (fun l => !predSrc s pa l)))

/-- PSET: 1 when the 32-bit value of a is not 0 (R367). -/
def execPset (g : BitVec 3) (a : Src) (s : State) : Out :=
  run s (do
    checkV s [a] true []
    .ok (predState s g.toNat (fun l => srcLane s 0 a l != 0)))

end Sys2Proof.Machine
end

