-- ==== Sys2Proof/Machine/Engine.lean ====
section
/-!
DEFINITION. Request-engine chains: ENQ, the walk of a chain's entries, and the performance of a COPY (15 R400-R407;
10 R253-R257; 08 R207).
-/

namespace Sys2Proof.Machine

open Sys2Proof

/-! ## ENQ (R400) -/

/-- ENQ: open until its consume is satisfied at its captured scope; its chain then starts. It acts once for the wave. -/
def execEnq (b : BitVec 2) (k : BitVec 4) (s : State) : Out :=
  onceForWave s (do
    checkScope s
    let ids ← consumeAt s k.toNat
    let head := alignDown ((baseOf s b).toNat % 2 ^ 19) 64
    .ok (advance (issueOp s
      { kind := .enq head s.g.die s.g.core, produce := 0, consume := k.toNat, waits := ids, scope := scope s,
        member := false })))

/-! ## Entries (R401, R402, R404, R405) -/

/-- An entry of a chain. -/
inductive Entry64 where
  | copy (job : CopyJob) (sstep dstep : Int) (produce consume bar : Nat)
  | loop (count body : Nat)
  | cond (rel consume skip off val : Nat)
  | arrive (consume bar : Nat)
  | stop
deriving DecidableEq, Repr

/-- The number in bytes [hi:lo] of an entry. -/
def field (bs : List Byte) (hi lo : Nat) : Nat := numOf ((bs.drop lo).take (hi + 1 - lo))

/-- Bytes [hi:lo] of an entry are zero. -/
def zeroBytes (bs : List Byte) (hi lo : Nat) : Bool := field bs hi lo == 0

/-- A local offset has no bit above 18 set (R401). -/
def localOk (loc : Bool) (x : Nat) : Bool := !loc || decide (x < 2 ^ 19)

/-- A COPY entry, or none where it is malformed. -/
def copyEntry (bs : List Byte) : Option Entry64 :=
  let kind := field bs 0 0
  let fl := field bs 1 1
  let rows := field bs 31 28
  let two := kind == 2
  let bar := field bs 7 4
  let ok := decide (fl < 8) && zeroBytes bs 3 3 && (bit fl 2 || bar == 0) && decide (bar < 2 ^ 19) &&
    localOk (bit fl 0) (field bs 15 8) && localOk (bit fl 1) (field bs 23 16) && decide (field bs 27 24 ≤ 16777216) &&
    (if two then decide (1 ≤ rows) && decide (rows ≤ 65535) else zeroBytes bs 39 28) && zeroBytes bs 63 56
  if ok then
    some (.copy
      { srcLocal := bit fl 0, dstLocal := bit fl 1, report := if bit fl 2 then some (alignDown bar 16) else none,
        src := field bs 15 8, dst := field bs 23 16, len := field bs 27 24, rows := if two then rows else 1,
        sstride := if two then sext (field bs 35 32) 32 else 0, dstride := if two then sext (field bs 39 36) 32 else 0,
        ctx := 0, die := 0, core := 0, group := 0, written := [], bad := none }
      (sext (field bs 47 40) 64) (sext (field bs 55 48) 64) (field bs 2 2 / 16) (field bs 2 2 % 16) (alignDown bar 16))
  else none

/-- The entry at e that 64 bytes hold, none where it is malformed; top is the end of the innermost open body (log 33). -/
def entry64 (bs : List Byte) (e : Nat) (loops : List LoopFrame) : Option Entry64 :=
  let within (n : Nat) : Bool := match loops with
    | [] => true
    | f :: _ => decide (e + 64 * (1 + n) ≤ f.stop)
  match field bs 0 0 with
  | 1 => copyEntry bs
  | 2 => copyEntry bs
  | 3 =>
    let body := field bs 7 6
    let count := field bs 5 4
    if zeroBytes bs 3 1 && zeroBytes bs 63 8 && decide (1 ≤ body) && decide (body ≤ 1023) && (count == 0 || decide (loops.length < 4)) && within body
    then some (.loop count body) else none
  | 4 =>
    let skip := field bs 5 4
    let off := field bs 11 8
    if decide (field bs 1 1 ≤ 3) && decide (field bs 2 2 < 16) && zeroBytes bs 3 3 && zeroBytes bs 7 6 && zeroBytes bs 63 16 &&
      decide (1 ≤ skip) && decide (skip ≤ 1023) && within skip && off % 4 == 0 && decide (off < 2 ^ 19)
    then some (.cond (field bs 1 1) (field bs 2 2) skip off (field bs 15 12)) else none
  | 5 =>
    if zeroBytes bs 1 1 && decide (field bs 2 2 < 16) && zeroBytes bs 3 3 && zeroBytes bs 63 8 && decide (field bs 7 4 < 2 ^ 19)
    then some (.arrive (field bs 2 2) (alignDown (field bs 7 4) 16)) else none
  | 6 => if zeroBytes bs 63 1 then some .stop else none
  | _ => none

/-! ## The walk (R404) -/

/-- Change a chain. -/
def modChain (id : Nat) (f : Chain → Chain) (s : State) : State :=
  { s with chains := s.chains.map (fun c => if c.id = id then f c else c) }

/-- The chain stops. -/
def endChain (id : Nat) (s : State) : State := { s with chains := s.chains.filter (fun c => c.id != id) }

/-- Bodies that end at e: their loops count on, or are left. -/
def closeLoops : Nat → Nat → List LoopFrame → Nat × List LoopFrame
  | 0, e, ls => (e, ls)
  | _, e, [] => (e, [])
  | n + 1, e, f :: ls =>
    if e = f.stop then
      if 1 < f.left then (f.start, { f with left := f.left - 1, iter := f.iter + 1 } :: ls) else closeLoops n e ls
    else (e, f :: ls)

/-- Go on to the entry at e, which is still to be read. -/
def walkTo (c : Chain) (e : Nat) (ls : List LoopFrame) (s : State) : State :=
  let r := closeLoops 5 e ls
  modChain c.id (fun x => { x with next := r.1, loops := r.2, waits := none, read := none }) s

/-- A walk fault: the chain stops, and one fault entry goes to slot 0 of the issuing wave (R406). -/
def walkFault (c : Chain) (cause detail : Nat) (s : State) : State :=
  endChain c.id (mapWaves (fun w => if w.handle = c.owner then
    placeCopy c.id { handle := c.owner, slot := 0, gen := 0 } { cause := cause, addr := c.next, detail := detail, slots := 0 } w
    else w) s)

/-- The local memory of the chain's group. -/
def chainGroup (s : State) (c : Chain) : Group := (anyGroup s c.group).getD {}

/-- n bytes of a group's local memory. -/
def locBytes (g : Group) (a n : Nat) : List Byte := (List.range n).map (fun i => locByte g (a + i))

/-- The wave whose key file the chain uses. -/
def chainWave (s : State) (c : Chain) : Wave := (waveAnywhere s c.owner).getD {}

/-- A COPY or IF goes on once every member of its consume key, as the key then stands, is performed at a scope (R403, R404; 09 R225,
R226). -/
def consumeEntry (c : Chain) (k sc : Nat) (go : State → State) (s : State) : State :=
  let w := chainWave s c
  if allPerformed s w sc (membersOf s w k) then go s else s

/-- An ARRIVE counts once the members that its key held when the chain reached it are performed (10 R260). -/
def consumeArrive (c : Chain) (k : Nat) (go : State → State) (s : State) : State :=
  let w := chainWave s c
  let ids := c.waits.getD (membersOf s w k)
  if allPerformed s w (max c.scope 1) ids then go s else modChain c.id (fun x => { x with waits := some ids }) s

/-- Relation of an IF. -/
def holds (rel w v : Nat) : Bool :=
  match rel with
  | 0 => w == v
  | 1 => w != v
  | 2 => decide (w < v)
  | _ => decide (v ≤ w)

/-! ## COPY: addresses and ownership (R403, R254) -/

/-- A COPY entry with its addresses resolved for iteration i. -/
def resolveCopy (c : Chain) (j : CopyJob) (sstep dstep : Int) : CopyJob :=
  let i : Int := match c.loops with
    | [] => 0
    | f :: _ => f.iter
  let at' (loc : Bool) (a : Nat) (step : Int) : Nat := lowBits ((a : Int) + step * i) (if loc then 19 else 64)
  { j with src := at' j.srcLocal j.src sstep, dst := at' j.dstLocal j.dst dstep,
           ctx := c.ctx, die := c.die, core := c.core, group := c.group }

/-- Byte j of row r: its destination and its source; a local offset that a stride takes below zero or past the local size fails. -/
def copyPair (j : CopyJob) (r i : Nat) : Nat × Nat :=
  let at' (a : Nat) (stride : Int) : Nat :=
    lowBits ((a : Int) + stride * (r : Int) + (i : Int)) 64
  (at' j.dst j.dstride, at' j.src j.sstride)

/-- Every byte an entry copies, rows in order. -/
def copyPairs (j : CopyJob) : List (Nat × Nat) :=
  (List.range j.rows).flatMap (fun r => (List.range j.len).map (copyPair j r))

/-- Insert a number in ascending order. -/
def insNat (n : Nat) : List Nat → List Nat
  | [] => [n]
  | m :: ms => if n ≤ m then n :: m :: ms else m :: insNat n ms

/-- The destination lines of an entry, in ascending order (R254). -/
def copyLines (j : CopyJob) : List Nat := (((copyPairs j).map (fun p => p.1 / 128)).eraseDups).foldr insNat []

/-- The translation of an engine's access. -/
def engineEntry (s : State) (j : CopyJob) (need : Need) (a : Nat) : Except XFault TlbEntry :=
  xlateIn s j.die j.ctx (Tab.get [] s.xlt.core (j.die * 32 + j.core)) need a

/-- The physical address of an engine's access, or its fault. -/
def engineXlate (s : State) (j : CopyJob) (need : Need) (a : Nat) : Except LFault Nat :=
  match engineEntry s j need a with
  | .error f => .error { cause := causeXlate, detail := f.detail, addr := a % 2 ^ 56 }
  | .ok e =>
    match noroute s (e.phys s a) with
    | some d => .error { cause := causeNoroute, detail := d, addr := a % 2 ^ 56 }
    | none => .ok (e.phys s a)

/-- The place of a byte: a local offset, or a physical address. -/
def enginePlace (s : State) (j : CopyJob) (loc : Bool) (need : Need) (a : Nat) : Except LFault Nat :=
  if loc then
    if a < ((anyGroup s j.group).getD {}).desc.lsize then .ok a else .error { cause := causeXlate, detail := 6, addr := a }
  else engineXlate s j need a

/-- The request engine of a core as an agent of its slice. -/
def engineAgent (core : Nat) : Nat := 32 + core

/-- A line as an engine reaches it: its number, its page class, and whether it is mapped uncached. -/
structure EngineLine where
  line : Nat
  cls : Nat
  unc : Bool

/-- The line at a virtual line number, where an access to it by the engine does not fail; none too where no cache holds it. -/
def engineLine (s : State) (j : CopyJob) (need : Need) (v : Nat) : Option EngineLine :=
  match engineEntry s j need (128 * v), engineXlate s j need (128 * v) with
  | .ok e, .ok a => if cacheable (lineOf a) then some { line := lineOf a, cls := e.cls, unc := e.unc } else none
  | _, _ => none

/-- The engine owns the line on its die. -/
def ownsLine (s : State) (j : CopyJob) (l : Nat) : Bool := (l2Get s j.die l).owner == some (engineAgent j.core)

/-- Lines that the engine of a core owns. -/
def ownedCount (s : State) (j : CopyJob) : Nat :=
  s.coh.l2.countP (fun x => x.die == j.die && x.owner == some (engineAgent j.core))

/-! ## Writing the lines of a COPY (R253, R254, R256, R403; 08 R207) -/

/-- One byte of a copy resolved: destination and source places, or the fault of the lower of the two addresses. -/
structure CopyByte where
  vdst : Nat
  dst : Nat
  src : Nat

/-- The bytes of one destination sector: all resolved, or the fault of lowest address among them; one that got no response fails
(02 R55). -/
def resolveSector (s : State) (j : CopyJob) (ps : List (Nat × Nat)) : Except LFault (List CopyByte) :=
  match j.lost.find? (fun x => ps.any (fun p => p.1 / 32 == x.1)) with
  | some x => .error { cause := causeNoroute, detail := 3, addr := x.2 % 2 ^ 56 }
  | none =>
  ps.foldr (fun p r =>
    let here : Except LFault CopyByte :=
      match enginePlace s j j.dstLocal .write p.1, enginePlace s j j.srcLocal .read p.2 with
      | .ok d, .ok q => .ok { vdst := p.1, dst := d, src := q }
      | .error f, .ok _ => .error f
      | .ok _, .error f => .error f
      | .error f, .error g => .error (if g.addr < f.addr then g else f)
    match here, r with
    | .ok x, .ok xs => .ok (x :: xs)
    | .ok _, .error f => .error f
    | .error f, .ok _ => .error f
    | .error f, .error g => .error (if g.addr < f.addr then g else f)) (.ok [])

/-- A byte and its sector's deviation at a place. -/
def placeByte (s : State) (j : CopyJob) (loc : Bool) (a : Nat) : Byte :=
  if loc then locByte ((anyGroup s j.group).getD {}) a else loadByte s a

def placeDev (s : State) (j : CopyJob) (loc : Bool) (a : Nat) : BitVec 16 :=
  if loc then locDev ((anyGroup s j.group).getD {}) (a / 32) else if paRegion a = 2 then 0 else sectorDev s (a / 32)

/-- The deviation a destination sector takes (R403): carried when copied whole from one whole source sector at the same
offsets; else poison when any source sector, or for a partial sector its own old value, is not good. -/
def copyDev (s : State) (j : CopyJob) (xs : List CopyByte) : BitVec 16 :=
  let last (i : Nat) : Option CopyByte := (xs.filter (fun x => x.dst % 32 == i)).getLast?
  let whole := (List.range 32).all (fun i => (last i).isSome)
  let srcs := (List.range 32).filterMap (fun i => (last i).map (fun x => (i, x.src)))
  let one := whole && srcs.all (fun p => p.2 % 32 == p.1) && (srcs.map (fun p => p.2 / 32)).eraseDups.length == 1
  let old := (xs.head?.map (fun x => placeDev s j j.dstLocal x.dst)).getD 0
  if one then (srcs.head?.map (fun p => placeDev s j j.srcLocal p.2)).getD 0
  else if srcs.any (fun p => placeDev s j j.srcLocal p.2 != 0) || (!whole && old != 0) then 0xFFFF
  else 0

/-- What a sector of global memory takes of a deviation: a write to host memory is sent with the EP bit set and logged, and keeps none;
one to another module is sent with the poison flag (01 R31, R33). -/
def sendDev (p : Nat × BitVec 16) (s : State) : State :=
  let a := 32 * p.1
  if paRegion a = 2 then s
  else if paRegion a = 1 then (if p.2 = 0 then s else logEvent (.poisonSent p.1) s)
  else
    let d := if p.2 != 0 && paModule a != s.fab.module then 0xFFFF else p.2
    { s with mem := { s.mem with dev := Tab.put 0 s.mem.dev p.1 d } }

/-- Write cells with the deviation of each sector as given. -/
def writePlaces (j : CopyJob) (cells : List (Nat × Byte)) (devs : List (Nat × BitVec 16)) (s : State) : State :=
  if j.dstLocal then
    modGroup j.group (fun g =>
      let h := locStore g cells
      { h with ldev := devs.foldl (fun d p => Tab.put 0 d p.1 p.2) h.ldev }) s
  else
    let t := devs.foldl (fun t p => sendDev p t) (memWrite s (cells.filter (fun c => paRegion c.1 != 2)))
    reduceCells (cells.filter (fun c => paRegion c.1 == 2)) t

/-- The lower of two fault entries. -/
def lowerEntry (a b : Option FaultEntry) : Option FaultEntry :=
  match a, b with
  | none, y => y
  | x, none => x
  | some x, some y => some (if y.addr < x.addr then y else x)

/-- The bytes of an entry that lie in one destination line. -/
def linePairs (j : CopyJob) (v : Nat) : List (Nat × Nat) := (copyPairs j).filter (fun p => p.1 / 128 == v)

/-- Those of sectors that have not failed for want of a response. -/
def livePairs (j : CopyJob) (v : Nat) : List (Nat × Nat) :=
  (linePairs j v).filter (fun p => j.lost.all (fun x => x.1 != p.1 / 32))

/-- Write one destination line: all its source bytes are read first, and failing sectors are left (R254, R256). -/
def copyLine (j : CopyJob) (v : Nat) (s : State) : CopyJob × State :=
  let ps := linePairs j v
  let secs := (ps.map (fun p => p.1 / 32)).eraseDups
  let rs := secs.map (fun x => resolveSector s j (ps.filter (fun p => p.1 / 32 == x)))
  let good := rs.filterMap (fun r => match r with
    | .ok xs => some xs
    | .error _ => none)
  let bad := rs.foldl (fun m r => match r with
    | .ok _ => m
    | .error f => lowerEntry m (some { cause := f.cause, addr := f.addr, detail := f.detail, slots := 0 })) j.bad
  let cells := good.flatMap (fun xs => xs.map (fun x => (x.dst, placeByte s j j.srcLocal x.src)))
  let devs := good.filterMap (fun xs => xs.head?.map (fun x => (x.dst / 32, copyDev s j xs)))
  ({ j with written := v :: j.written, bad := bad }, writePlaces j cells devs s)

/-! ## Recall of a line (08 R207) -/

/-- An entry in flight, another than the one numbered, of the engine of a core that has still to write a physical line, with that line
as the engine addresses it. -/
def copyOwning (s : State) (but : Option Nat) (die agent line : Nat) : Option (Op × CopyJob × Nat) :=
  s.ops.findSome? (fun o => match o.kind with
    | .copy j =>
      if j.die = die ∧ engineAgent j.core = agent ∧ !j.dstLocal ∧ some o.id ≠ but then
        ((copyLines j).find? (fun v => !j.written.contains v && (engineLine s j .write v).any (fun x => x.line == line))).map
          (fun v => (o, j, v))
      else none
    | _ => none)

/-- A line that an engine gives up: the engine no longer stands in the way of a transaction, which has its acknowledgement, or of a
waiting request (08 R201, R206). -/
def engineLeaves (agent : Nat) (x : L2Line) : L2Line :=
  { x with
    owner := if x.owner = some agent then none else x.owner
    txn := x.txn.map (fun t => if t.targets.contains agent then { t with targets := t.targets.erase agent, sent := t.sent + 1 } else t) }

/-- The engine gives up a line that no other entry of it has still to write. -/
def releaseLine (o : Op) (j : CopyJob) (l : Nat) (s : State) : State :=
  if ownsLine s j l && (copyOwning s (some o.id) j.die (engineAgent j.core) l).isNone then
    l2Mod j.die l (engineLeaves (engineAgent j.core)) s
  else s

/-- An engine has answered a recall of the line. -/
def recallAnswered (die line agent : Nat) (s : State) : State := l2Mod die line (engineLeaves agent) s

/-- The engine that owns a line writes the bytes of it that each of its entries has still to write, and then answers. -/
def recallOwner (die line agent : Nat) : Nat → State → State
  | 0, s => recallAnswered die line agent s
  | n + 1, s =>
    match copyOwning s none die agent line with
    | none => recallAnswered die line agent s
    | some (o, j, v) =>
      let r := copyLine j v s
      recallOwner die line agent n (modOp o.id (fun p => { p with kind := .copy r.1 }) r.2)

/-- Recall a line of a die from the engine that owns it. -/
def recallLine (die line : Nat) (s : State) : State :=
  match (l2Get s die line).owner with
  | some a => if a < 32 then s else recallOwner die line a (s.ops.length + 1) s
  | none => s

/-- Recall a line from every engine that owns it. -/
def recallEngines (line : Nat) (s : State) : State := (List.range 32).foldl (fun t d => recallLine d line t) s

/-- The engine that a transaction of a line waits for, though it owns the line no longer. -/
def lateTarget (x : L2Line) : Option Nat :=
  if engineOwns x then none else x.txn.bind (fun t => t.targets.find? (fun a => decide (32 ≤ a)))

/-- ENGINE_RECALL: the engine that owns the line writes its bytes of the line and then answers (08 R207); one that has given it up answers
not held (R206). The next waiting request is served. -/
def execEngineRecall (die line : Nat) (s : State) : Out :=
  .next (
    let x := l2Get s die line
    match lateTarget x with
    | some a => recallAnswered die line a s
    | none => if engineOwns x then settleAll (serveQueue die line (recallLine die line s)) else s)

/-! ## Ownership and sources (R254; 08 R207) -/

/-- SLICE_OWNERSHIP_REQUEST: agent 0-31 the L1 of a core; 32-63 the request engine of core n - 32, which owns nothing but destination
lines of its entries, at most 256 of them (08 R200, R207). -/
def execSliceOwnershipRequest (die agent line : Nat) (s : State) : Out :=
  .next (
    let owned := s.coh.l2.countP (fun x => x.die == die && x.owner == some agent)
    if !cacheable line || decide (64 ≤ agent) then s
    else if agent < 32 then (if quarterOk s die agent line then takeRequest die agent true line s else s)
    else if (copyOwning s none die agent line).isSome && decide (owned < 256) then takeRequest die agent true line s
    else s)

/-- The engine takes ownership of a line that it does not own: another engine is recalled; none where the line cannot be given up yet,
or 256 lines are owned. -/
def takeOne (j : CopyJob) (x : EngineLine) (s : State) : Option State :=
  if ownsLine s j x.line then some s
  else if 256 ≤ ownedCount s j then none
  else
    let t := recallEngines x.line s
    if canWrite t j.die none x.cls x.line then
      some (l2Mod j.die x.line (fun y => { y with owner := some (engineAgent j.core) }) (ownLineFor j.die none x.cls x.line t))
    else none

/-- Take lines in order, up to the first that cannot be had; those already owned, mapped uncached, or with nothing to be written are
passed over. -/
def takeInOrder (j : CopyJob) : List Nat → State → State
  | [], s => s
  | v :: vs, s =>
    if j.written.contains v || (livePairs j v).isEmpty then takeInOrder j vs s
    else match engineLine s j .write v with
    | none => takeInOrder j vs s
    | some x =>
      if x.unc then takeInOrder j vs s
      else match takeOne j x s with
        | none => s
        | some t => takeInOrder j vs t

/-- The engine takes ownership of the lines that an entry has still to write, in ascending order, at most 256 at a time (R254,
08 R207). -/
def takeLines (j : CopyJob) (s : State) : State := if j.dstLocal then s else takeInOrder j (copyLines j) s

/-- A request engine used the translations of addresses (07 R193). -/
def engineInstalls (j : CopyJob) (as : List Nat) (s : State) : State :=
  (((as.map (· / 4096)).eraseDups).map (4096 * ·)).foldl (fun t a => installFor false (j.die * 32 + j.core) j.die j.ctx a t) s

/-- The source lines of one destination line are read through the L2, or at their home; a line that an engine owns is served at once
with its current bytes (R254; 07 R182, R194); host memory is read while a port is up (02 Table 2-3). -/
def readSources (j : CopyJob) (v : Nat) (s : State) : Option State :=
  let host := (livePairs j v).any (fun p => match engineXlate s j .read p.2 with
    | .ok a => paRegion a == 1
    | .error _ => false)
  if j.srcLocal then some s
  else if host && !activeUp s then none
  else
    let ls := ((livePairs j v).map (fun p => p.2 / 128)).eraseDups
    serveAll (fun q t =>
      match engineLine t j .read q with
      | none => some t
      | some x =>
        if t.coh.l2.any (fun y => y.line == x.line && engineOwns y) then some t
        else if x.unc then uncachedReadServed j.die x.cls x.line t
        else readServed j.die none x.cls [] x.line t) ls s

/-- The engine has the destination line: it owns it, as taken in order, or writes it at its home where it is mapped uncached. -/
def takeTarget (j : CopyJob) (v : Nat) (s : State) : Option State :=
  if j.dstLocal || (livePairs j v).isEmpty then some s
  else
    match engineLine s j .write v with
    | none => some s
    | some x => if x.unc then uncachedWriteServed j.die x.cls x.line (recallEngines x.line s) else if ownsLine s j x.line then some s else none

/-- Write one destination line of an entry in flight, once its line can be had and its sources be read. -/
def writeLine (o : Op) (v : Nat) (j : CopyJob) (s : State) : CopyJob × State :=
  match takeTarget j v s >>= readSources j v with
  | none => (j, s)
  | some t =>
    let as := (livePairs j v).flatMap (fun p => (if j.dstLocal then [] else [p.1]) ++ (if j.srcLocal then [] else [p.2]))
    let r := copyLine j v (engineInstalls j as t)
    match if j.dstLocal then none else engineLine s j .write v with
    | none => r
    | some x => (r.1, releaseLine o j x.line r.2)

/-- Write the lines of an entry that are still to be written, as far as they can be: the next ones are taken in order, and those had
are written. -/
def copyRest (o : Op) (j : CopyJob) (s : State) : CopyJob × State :=
  (copyLines j).foldl (fun p v => if p.1.written.contains v then p else writeLine o v p.1 p.2) (j, takeLines j s)

/-- Every line of an entry is written. -/
def copyWritten (j : CopyJob) : Bool := (copyLines j).all (fun v => j.written.contains v)

/-- 32-byte sectors that the rows of an entry touch. -/
def copySectors (j : CopyJob) : Nat :=
  if j.len = 0 then 0
  else (List.range j.rows).foldl (fun n r =>
    let d := (copyPair j r 0).1
    n + ((d + j.len - 1) / 32 + 1 - d / 32)) 0

/-- A COPY reports its sectors, performed at group scope (R403). -/
def reportCopy (j : CopyJob) (s : State) : State :=
  match j.report with
  | none => s
  | some bar => updateSectors j.group bar (-(copySectors j : Int)) s

/-- COPY issues: its destination lines are taken and it joins its produce key (R403, R225). One that copies nothing is complete at once,
with its report of 0. -/
def issueCopy (c : Chain) (j : CopyJob) (produce : Nat) (s : State) : State :=
  let w := chainWave s c
  let o : Op :=
    { id := s.nextOp, owner := c.owner, lane := none, pc := 0, kind := .copy j, tag := some (openTag w produce), consume := 0,
      waits := [], scope := c.scope, strong := false, flag := none, done := 0, rd := [], wr := [], fault := none,
      faultLanes := 0, late := none, uncached := [], cls := [], accs := [], die := c.die, core := c.core, via := [] }
  if j.len = 0 then reportCopy j s
  else
    let t := modWave c.owner (fun w => joinTag w produce) s
    takeLines j { t with ops := t.ops ++ [o], nextOp := t.nextOp + 1 }

/-! ## One entry (R255, R404) -/

/-- A barrier's 16 bytes lie below the local size. -/
def barFits (g : Group) (off : Nat) : Bool := decide (off + 16 ≤ g.desc.lsize)

/-- The engine walks the entry that a chain has reached. -/
def walkEntry (c : Chain) (s : State) : State :=
  let g := chainGroup s c
  if g.desc.lsize < c.next + 64 then walkFault c causeXlate 6 s
  else
    match entry64 (c.read.getD (locBytes g c.next 64)) c.next c.loops with
    | none => walkFault c causeIllop 1 s
    | some .stop => endChain c.id s
    | some (.loop count body) =>
      if count = 0 then walkTo c (c.next + 64 * (1 + body)) c.loops s
      else walkTo c (c.next + 64)
        ({ start := c.next + 64, stop := c.next + 64 * (1 + body), left := count, iter := 0 } :: c.loops) s
    | some (.cond rel k skip off val) =>
      if g.desc.lsize < off + 4 then walkFault c causeXlate 6 s
      else consumeEntry c k c.scope (fun t =>
        walkTo c (if holds rel (locNum (chainGroup t c) off 4) val then c.next + 64 else c.next + 64 * (1 + skip)) c.loops t) s
    | some (.arrive k bar) =>
      if !barFits g bar then walkFault c causeXlate 6 s
      else if decide (64 ≤ heldCount s c.die c.core) && (barOf s c.group bar).arrivals == 0 then s
      else consumeArrive c k (fun t => updateArrive c.group bar (some c.id) (walkTo c (c.next + 64) c.loops t)) s
    | some (.copy j sstep dstep p k bar) =>
      if j.report.isSome && !barFits g bar then walkFault c causeXlate 6 s
      else if !memberRoom s (chainWave s c) p then s
      else consumeEntry c k c.scope (fun t => issueCopy c (resolveCopy c j sstep dstep) p (walkTo c (c.next + 64) c.loops t)) s

/-- After an entry of a chain has issued the other chains of its core come first, in order of their start (10 R255). -/
def turnChains (c : Chain) (s : State) : State :=
  let mine := s.chains.filter (fun x => x.die == c.die && x.core == c.core)
  let rest := s.chains.filter (fun x => !(x.die == c.die && x.core == c.core))
  let i := mine.findIdx (fun x => x.id == c.id)
  { s with chains := rest ++ (mine.drop (i + 1) ++ mine.take (i + 1)) }

/-- A chain that starts comes after the one that started last, where the turn has not come to it yet. -/
def joinChains (c : Chain) (cs : List Chain) : List Chain :=
  let mine := cs.filter (fun x => x.die == c.die && x.core == c.core)
  let rest := cs.filter (fun x => !(x.die == c.die && x.core == c.core))
  let last := mine.foldl (fun m x => max m x.start) 0
  let i := mine.findIdx (fun x => x.start == last)
  rest ++ (mine.take (i + 1) ++ c :: mine.drop (i + 1))

/-- The chain of an ENQ starts: entries are read once the members of its key are performed at group scope too (10 R255). -/
def startChain (o : Op) (head die core : Nat) (s : State) : State :=
  let c : Chain :=
    { id := o.id, owner := o.owner, group := groupOf o.owner, ctx := handleCtx o.owner, die := die, core := core,
      scope := o.scope, next := head, loops := [], holding := false, waits := none, start := s.nextOp }
  { (completeOp o s) with chains := joinChains c s.chains, nextOp := s.nextOp + 1 }

/-- A store of the chain's group has reached some bytes of the entry and not all: the chain reads the entry once the rest has landed,
whole (R401, R407). -/
def entryTorn (s : State) (c : Chain) : Bool :=
  let inside (x : Nat × Byte) : Bool := decide (c.next ≤ x.1) && decide (x.1 < c.next + 64)
  s.ops.any (fun o => groupOf o.owner == c.group && match o.kind with
    | .store true cells => cells.any inside && o.got.any inside
    | _ => false)

/-- The chain with the entry that it has reached: read once, as one event (R401). -/
def readEntry (s : State) (c : Chain) : Chain :=
  if c.read.isSome then c else { c with read := some (locBytes (chainGroup s c) c.next 64) }

/-- A chain may be walked: its ARRIVE is not held, its group is resident and no full save of it is due (04 R109), and its entry can be
read. -/
def chainRuns (s : State) (c : Chain) : Bool :=
  !c.holding && !(findGroup s c.group).all (·.saveDue) && (c.read.isSome || !entryTorn s c)

/-- Walk the entry of a chain, read before. -/
def walkRead (c : Chain) (s : State) : State :=
  let d := readEntry s c
  walkEntry d (modChain c.id (fun _ => d) s)

/-- The next entry of a chain is ready: walked, it issues. -/
def chainReady (s : State) (c : Chain) : Bool :=
  chainRuns s c && match (walkRead c s).chains.find? (fun x => x.id == c.id) with
  | none => true
  | some x => x.next != c.next || x.loops != c.loops

/-- The chain of a core whose turn it is: the first that is ready (10 R255). -/
def chainTurn (s : State) (c : Chain) : Bool :=
  (s.chains.find? (fun x => x.die == c.die && x.core == c.core && chainReady s x)).all (fun x => x.id == c.id || !chainReady s c)

/-- One entry of a chain; the turn goes on where it has issued. -/
def walkChain (c : Chain) (s : State) : State := if chainReady s c then turnChains c (walkRead c s) else walkRead c s

/-- ENGINE_ENTRY_ISSUE: a chain's next entry is walked, where its turn has come among those that are ready; an ENQ with that number that
is no longer open starts its chain. -/
def execEngineEntryIssue (chain : Nat) (s : State) : Out :=
  .next (match s.chains.find? (fun c => c.id == chain) with
    | some c => if chainRuns s c && chainTurn s c then settleAll (walkChain c s) else s
    | none =>
      match findOp s chain with
      | none => s
      | some o =>
        match o.kind with
        | .enq head die core => if o.fault.isNone && waitsAt s (max o.scope 1) o && !(ctxGet s (handleCtx o.owner)).destroying then settleAll (startChain o head die core s) else s
        | _ => s)

/-! ## Performing a COPY (R403, R253-R256) -/

/-- An entry writes host memory, whose writes await the data-link acknowledgement (02 R47). -/
def copyToHost (s : State) (j : CopyJob) : Bool :=
  !j.dstLocal && (copyLines j).any (fun v => match engineXlate s j .write (128 * v) with
    | .ok a => paRegion a == 1
    | .error _ => false)

/-- The engine gives up every line that no entry but the one numbered has still to write. -/
def releaseIdle (o : Op) (j : CopyJob) (s : State) : State :=
  { s with coh := { s.coh with l2 := s.coh.l2.map (fun x =>
      if x.die = j.die ∧ x.owner = some (engineAgent j.core) ∧ (copyOwning s (some o.id) j.die (engineAgent j.core) x.line).isNone then
        engineLeaves (engineAgent j.core) x else x) } }

/-- A COPY completes: its members do, with one fault entry where a sector failed (R253, R256). -/
def completeCopy (o : Op) (j : CopyJob) (s : State) : State :=
  let t := releaseIdle o j s
  match j.bad with
  | none => completeOp o t
  | some e => faultOp o e t

/-- A COPY goes on: it writes the lines it can; with all written it is performed at device scope and reports, and completes, or awaits
the acknowledgement of what it wrote to host memory (R253, R256, R403; 02 R47). -/
def performCopy (o : Op) (j : CopyJob) (s : State) : State :=
  if o.done = 5 then s
  else
    let r := copyRest o j s
    if copyWritten r.1 then
      if copyToHost r.2 r.1 then reportCopy r.1 (modOp o.id (fun p => { p with kind := .copy r.1, done := 5 }) r.2)
      else reportCopy r.1 (completeCopy o r.1 r.2)
    else modOp o.id (fun p => { p with kind := .copy r.1 }) r.2

/-- COPY_PERFORMED. -/
def execCopyPerformed (op : Nat) (s : State) : Out :=
  .next (match findOp s op with
    | none => s
    | some o =>
      match o.kind with
      | .copy j => settleAll (performCopy o j s)
      | _ => s)

/-! ## Acknowledgement of writes to host memory (02 R47, R48) -/

/-- HOST_WRITE_ACK: the active port has the data-link acknowledgement of a write to host memory, which is then performed at fabric
scope; with the link down the write waits. -/
def execHostWriteAck (op : Nat) (s : State) : Out :=
  .next (match findOp s op with
    | none => s
    | some o =>
      if o.done = 5 && activeUp s then
        settleAll (match o.kind with
          | .copy j => completeCopy o j s
          | _ => finishOp o s)
      else s)

end Sys2Proof.Machine
end

