-- ==== Sys2Proof/Machine/GiveClaim.lean ====
section
/-!
DEFINITION. Giving and claiming vector blocks and tiles (05 R145-R149; 15 R409; 06 R169).
-/

namespace Sys2Proof.Machine

open Sys2Proof

/-- The pool a claim draws on: by slot, of blocks or tiles. -/
def poolGet (g : Group) (vector : Bool) (slot : Nat) : Nat := Tab.get 0 (if vector then g.vpool else g.xpool) slot

/-- Set a pool. -/
def poolPut (g : Group) (vector : Bool) (slot n : Nat) : Group :=
  if vector then { g with vpool := Tab.put 0 g.vpool slot n } else { g with xpool := Tab.put 0 g.xpool slot n }

/-- The wave holding n blocks, or tiles; the contents of those from lo on are lost. -/
def setUnits (w : Wave) (vector : Bool) (n lo : Nat) : Wave :=
  if vector then { w with vblocks := n, vreg := w.vreg.filter (fun e => decide (e.1 < 8 * lo)) }
  else { w with tiles := n, tile := w.tile.filter (fun e => decide (e.1 < lo)), side := w.side.filter (fun e => decide (e.1 < lo)) }

/-- Check of the count (R147). -/
def checkCount (s : State) (vector claim : Bool) (n : Nat) : Except Trap Unit :=
  let h := heldUnits s.w vector
  check (decide (n ≤ 16) && (if claim then decide (h + n ≤ 16) else decide (n ≤ h))) (trapOf causeIllopnd 3)

/-- The highest n units pass to the pool. -/
def give (vector : Bool) (n : Nat) (s : State) : State :=
  let h := heldUnits s.w vector
  { s with
    w := setUnits s.w vector (h - n) (h - n)
    g := poolPut s.g vector (slotOf s.w.idx) (poolGet s.g vector (slotOf s.w.idx) + n) }

/-- A give: with no lane that is not a helper, or n = 0, nothing moves. -/
def giveUnits (vector : Bool) (n : Nat) (s : State) : Out :=
  commit s (do
    checkCount s vector false n
    if !someNonHelper s || n == 0 then .ok (advance s)
    else do
      let t ← if vector then recallWhere (fun e => decide (s.w.vblocks < e.live + n)) s else .ok s
      .ok (advance (give vector n t)))

/-- VGIVE; a block in an ejected lane's live window recalls that lane first (06 R169). -/
def execVgive (n : BitVec 16) (s : State) : Out := giveUnits true n.toNat s

/-- XGIVE. -/
def execXgive (n : BitVec 16) (s : State) : Out := giveUnits false n.toNat s

/-- The claims of a pool, oldest first. -/
def claimsOn (g : Group) (vector : Bool) (slot : Nat) : List Claim :=
  g.claims.filter (fun c => c.vector == vector && slotOf c.wave == slot)

/-- The claim is the oldest of its pool and can be met. -/
def meetable (g : Group) (c : Claim) : Bool :=
  (claimsOn g c.vector (slotOf c.wave)).head? == some c && decide (c.n ≤ poolGet g c.vector (slotOf c.wave))

/-- The wave takes n units from the pool. -/
def claimed (vector : Bool) (n : Nat) (w : Wave) : Wave := setUnits w vector (heldUnits w vector + n) (heldUnits w vector)

/-- A claim: met at once when the pool holds enough and no claim on it is stalled; else stalled in order (R146). In trap
mode a double fault. -/
def claimUnits (vector : Bool) (n : Nat) (s : State) : Out :=
  commit s (do
    checkCount s vector true n
    if !someNonHelper s then .ok (advance s)
    else do
      check (!s.w.trap.on) (trapOf causeIllop 0)
      if n = 0 then .ok (advance s)
      else
      let slot := slotOf s.w.idx
      if s.g.claims.any (fun c => c.wave == s.w.idx) then .ok (hold s .claim)
      else if (claimsOn s.g vector slot).isEmpty && decide (n ≤ poolGet s.g vector slot) then
        .ok (advance { s with
          w := claimed vector n s.w
          g := poolPut s.g vector slot (poolGet s.g vector slot - n) })
      else .ok (hold { s with g := { s.g with claims := s.g.claims ++ [{ wave := s.w.idx, vector := vector, n := n }] } } .claim))

/-- VCLAIM. -/
def execVclaim (n : BitVec 16) (s : State) : Out := claimUnits true n.toNat s

/-- XCLAIM. -/
def execXclaim (n : BitVec 16) (s : State) : Out := claimUnits false n.toNat s

/-- The wave goes on past a claim that was met. -/
def granted (c : Claim) (w : Wave) : Wave := { claimed c.vector c.n w with status := .ready, pc := w.pc + 4 }

/-- Meet a stalled claim of the group in focus. -/
def grantClaim (c : Claim) (s : State) : State :=
  let slot := slotOf c.wave
  modWave (handleOf s.g c.wave) (granted c) { s with
    g := { poolPut s.g c.vector slot (poolGet s.g c.vector slot - c.n) with claims := s.g.claims.erase c } }

/-- The first claim of a group that can be met. -/
def nextClaim (g : Group) : Option Claim := g.claims.find? (meetable g)

/-- Meet the first claim of the group in focus that can be met. -/
def claimStep (s : State) : State :=
  match nextClaim s.g with
  | none => s
  | some c => grantClaim c s

/-- CLAIM_GRANT: a stalled claim of the group in focus is met. -/
def execClaimGrant (s : State) : Out := .next (claimStep s)

/-- Every wave of the group on the slot that has not exited is stalled in a claim, and none of these can be met
(R148). -/
def claimLocked (s : State) (slot : Nat) : Bool :=
  let ws := (wholeGroup s).peers.filter (fun w => slotOf w.idx == slot && w.status != .exited)
  !ws.isEmpty && ws.all (fun w => w.status == .waiting .claim && s.g.claims.any (fun c => c.wave == w.idx)) &&
    (s.g.claims.filter (fun c => slotOf c.wave == slot)).all (fun c => !meetable s.g c)

/-- CLAIMLOCK: the wave whose claim issued first takes the trap at its claim. -/
def execClaimlock (slot : Nat) (s : State) : Out :=
  .next (
    if claimLocked s slot then
      match s.g.claims.find? (fun c => slotOf c.wave == slot) with
      | none => s
      | some c => withWave (handleOf s.g c.wave) (fun t =>
          takeTrap (trapOf causeClaimlock 0) (wake { t with g := { t.g with claims := t.g.claims.erase c } })) s
    else s)

end Sys2Proof.Machine
end

