-- ==== Sys2Proof/Machine/Crypto.lean ====
section
/-!
DEFINITION. The digests and signatures that Trailhead computes: SHA-512, and RSASSA-PSS verification with RSA-4096, SHA-512
and MGF1 with SHA-512 (01 R15, R16, R23); and AES-256-XTS, with which the memory dies encipher DRAM (R24). The manual names these
algorithms and does not write them out (log 8).
-/

namespace Sys2Proof.Machine

open Sys2Proof

/-! ## SHA-512 -/

/-- Largest r of at most b further bits with r ^ k ≤ n. -/
def rootBits (k n : Nat) : Nat → Nat → Nat
  | 0, r => r
  | b + 1, r => rootBits k n b (if (r + 2 ^ b) ^ k ≤ n then r + 2 ^ b else r)

/-- The primes whose roots give the constants. -/
def shaPrimes : List Nat :=
  [2, 3, 5, 7, 11, 13, 17, 19, 23, 29, 31, 37, 41, 43, 47, 53, 59, 61, 67, 71] ++
  [73, 79, 83, 89, 97, 101, 103, 107, 109, 113, 127, 131, 137, 139, 149, 151, 157, 163, 167, 173] ++
  [179, 181, 191, 193, 197, 199, 211, 223, 227, 229, 233, 239, 241, 251, 257, 263, 269, 271, 277, 281] ++
  [283, 293, 307, 311, 313, 317, 331, 337, 347, 349, 353, 359, 367, 373, 379, 383, 389, 397, 401, 409]

/-- The first 64 fractional bits of the k-th root of p. -/
def rootFraction (k p : Nat) : BitVec 64 := BitVec.ofNat 64 (rootBits k (p * 2 ^ (64 * k)) 72 0)

/-- The round constants. -/
def shaConstants : List (BitVec 64) := shaPrimes.map (rootFraction 3)

/-- The initial hash value. -/
def shaInitial : List (BitVec 64) := (shaPrimes.take 8).map (rootFraction 2)

/-- Rotations and a shift xored together: Σ when s is none, else σ. -/
def shaSigma (a b c : Nat) (shift : Bool) (x : BitVec 64) : BitVec 64 :=
  x.rotateRight a ^^^ x.rotateRight b ^^^ (if shift then x >>> c else x.rotateRight c)

/-- The message schedule, latest word first, continued by n words. -/
def shaSchedule : Nat → List (BitVec 64) → List (BitVec 64)
  | 0, w => w
  | n + 1, w =>
    let x := shaSigma 19 61 6 true (w.getD 1 0) + w.getD 6 0 + shaSigma 1 8 7 true (w.getD 14 0) + w.getD 15 0
    shaSchedule n (x :: w)

/-- One round on the working variables a to h. -/
def shaRound (v : List (BitVec 64)) (kw : BitVec 64 × BitVec 64) : List (BitVec 64) :=
  let x (i : Nat) := v.getD i 0
  let ch := (x 4 &&& x 5) ^^^ (~~~(x 4) &&& x 6)
  let maj := (x 0 &&& x 1) ^^^ (x 0 &&& x 2) ^^^ (x 1 &&& x 2)
  let t1 := x 7 + shaSigma 14 18 41 false (x 4) + ch + kw.1 + kw.2
  let t2 := shaSigma 28 34 39 false (x 0) + maj
  [t1 + t2, x 0, x 1, x 2, x 3 + t1, x 4, x 5, x 6]

/-- Bytes as a number, most significant first. -/
def bigNum (bs : List Byte) : Nat := bs.foldl (fun n b => n * 256 + b.toNat) 0

/-- The n bytes of a number, most significant first. -/
def bigBytes (n x : Nat) : List Byte := (List.range n).map (fun i => BitVec.ofNat 8 (x / 256 ^ (n - 1 - i)))

/-- One block of 128 bytes. -/
def shaBlock (h : List (BitVec 64)) (b : List Byte) : List (BitVec 64) :=
  let w0 := (List.range 16).map (fun i => BitVec.ofNat 64 (bigNum ((b.drop (8 * i)).take 8)))
  let ws := (shaSchedule 64 w0.reverse).reverse
  List.zipWith (· + ·) h ((shaConstants.zip ws).foldl shaRound h)

/-- The blocks of a padded message, n of them. -/
def shaBlocks : Nat → List (BitVec 64) → List Byte → List (BitVec 64)
  | 0, h, _ => h
  | n + 1, h, m => shaBlocks n (shaBlock h (m.take 128)) (m.drop 128)

/-- The message padded to whole blocks. -/
def shaPad (m : List Byte) : List Byte :=
  m ++ [0x80] ++ List.replicate ((239 - m.length % 128) % 128) 0 ++ bigBytes 16 (8 * m.length)

/-- SHA-512 as 64 bytes. -/
def sha512Bytes (m : List Byte) : List Byte :=
  (shaBlocks ((shaPad m).length / 128) shaInitial (shaPad m)).flatMap (fun x => bigBytes 8 x.toNat)

/-- SHA-512 of a byte string. -/
@[irreducible] def sha512 (m : List Byte) : BitVec 512 := BitVec.ofNat 512 (bigNum (sha512Bytes m))

/-! ## RSASSA-PSS -/

/-- b ^ e modulo n, e below 2^k. -/
def powMod (n : Nat) : Nat → Nat → Nat → Nat
  | 0, _, _ => 1 % n
  | k + 1, b, e =>
    let r := powMod n k (b * b % n) (e / 2)
    if e % 2 = 1 then b * r % n else r

/-- MGF1 with SHA-512: n blocks of mask from a counter on. -/
def mgf1 (seed : List Byte) : Nat → Nat → List Byte
  | _, 0 => []
  | i, n + 1 => bigBytes 64 (sha512 (seed ++ bigBytes 4 i)).toNat ++ mgf1 seed (i + 1) n

/-- EMSA-PSS verification of an encoded message of 512 bytes with salt bytes of salt (RSA-4096, SHA-512). -/
def pssOk (salt : Nat) (digest em : List Byte) : Bool :=
  let h := (em.drop 447).take 64
  let db := List.zipWith (· ^^^ ·) (em.take 447) (mgf1 h 0 7)
  let db := (db.take 1).map (· &&& 0x7F) ++ db.drop 1
  let pad := 446 - salt
  decide (salt ≤ 446) && em.getLast? == some 0xBC && decide ((em.headD 0).toNat < 128) &&
    (db.take pad).all (· == 0) && db[pad]? == some 1 &&
    h == bigBytes 64 (sha512 (List.replicate 8 0 ++ digest ++ db.drop (pad + 1))).toNat

/-- The signature verifies under the public key whose digest is the one that the boot ROM holds (R15). -/
@[irreducible] def signatureOk (bytes sig : List Byte) : Bool :=
  let n := Config.keyModulus Config.publicKey
  let s := bigNum sig
  sha512 Config.publicKey == Config.romKeyDigest && decide (sig.length = 512) && decide (s < n) &&
    pssOk Config.pssSalt (bigBytes 64 (sha512 bytes).toNat)
      (bigBytes 512 (powMod n 4096 s (Config.keyExponent Config.publicKey)))

/-! ## AES-256-XTS -/

/-- Twice an element of the field of 256 elements. -/
def gfTwice (a : Byte) : Byte := (a <<< 1) ^^^ (if a.getLsbD 7 then 0x1B else 0)

/-- Product in that field, of the n low bits of b. -/
def gfMul : Nat → Byte → Byte → Byte
  | 0, _, _ => 0
  | n + 1, a, b => (if b.getLsbD 0 then a else 0) ^^^ gfMul n (gfTwice a) (b >>> 1)

/-- The inverse, zero for zero: the 254th power. -/
def gfInverse (a : Byte) : Byte := ((List.range 6).foldl (fun p _ => let q := gfMul 8 p.1 p.1; (q, gfMul 8 p.2 q))
  (gfMul 8 a a, gfMul 8 a a)).2

/-- The S-box. -/
def aesSub (a : Byte) : Byte :=
  let b := gfInverse a
  b ^^^ b.rotateLeft 1 ^^^ b.rotateLeft 2 ^^^ b.rotateLeft 3 ^^^ b.rotateLeft 4 ^^^ 0x63

/-- Bytes xored. -/
def xorBytes (a b : List Byte) : List Byte := List.zipWith (· ^^^ ·) a b

/-- The key schedule, latest word first, continued by n words from word i on. -/
def aesSchedule : Nat → Nat → List (List Byte) → List (List Byte)
  | 0, _, w => w
  | n + 1, i, w =>
    let last := w.getD 0 []
    let t :=
      if i % 8 = 0 then xorBytes ((last.drop 1 ++ last.take 1).map aesSub) [gfMul 8 (1 <<< (i / 8 - 1)) 1, 0, 0, 0]
      else if i % 8 = 4 then last.map aesSub
      else last
    aesSchedule n (i + 1) (xorBytes (w.getD 7 []) t :: w)

/-- The 15 round keys of a key of 32 bytes. -/
def aesRoundKeys (key : List Byte) : List (List Byte) :=
  let w0 := (List.range 8).map (fun i => (key.drop (4 * i)).take 4)
  let ws := (aesSchedule 52 8 w0.reverse).reverse
  (List.range 15).map (fun r => ((ws.drop (4 * r)).take 4).flatten)

/-- ShiftRows on 16 bytes, column by column. -/
def aesShift (b : List Byte) : List Byte := (List.range 16).map (fun i => b.getD ((i % 4) + 4 * ((i / 4 + i % 4) % 4)) 0)

/-- MixColumns. -/
def aesMix (b : List Byte) : List Byte :=
  (List.range 16).map (fun i =>
    let x (j : Nat) : Byte := b.getD (i / 4 * 4 + (i + j) % 4) 0
    gfTwice (x 0) ^^^ gfTwice (x 1) ^^^ x 1 ^^^ x 2 ^^^ x 3)

/-- AES-256 of 16 bytes. -/
def aes256 (key block : List Byte) : List Byte :=
  let ks := aesRoundKeys key
  let b := ((ks.drop 1).take 13).foldl (fun b k => xorBytes (aesMix (aesShift (b.map aesSub))) k) (xorBytes block (ks.getD 0 []))
  xorBytes (aesShift (b.map aesSub)) (ks.getD 14 [])

/-- Twice a tweak, as an element of the field of 2 ^ 128 elements. -/
def tweakTwice (t : Nat) : Nat := Nat.xor (2 * t % 2 ^ 128) (if bit t 127 then 0x87 else 0)

/-- The tweak of a block after another, n blocks on. -/
def tweakAfter (n t : Nat) : Nat := (List.range n).foldl (fun t _ => tweakTwice t) t

/-- AES-256-XTS of whole blocks under a key, whose low 32 bytes encipher the data, from a block of a data unit on. -/
def xtsEncipher (key : BitVec 512) (unit first : Nat) (bytes : List Byte) : List Byte :=
  let k := bytesOf 64 key.toNat
  let t0 := numOf (aes256 (k.drop 32) (bytesOf 16 unit))
  (List.range (bytes.length / 16)).flatMap (fun i =>
    let t := bytesOf 16 (tweakAfter (first + i) t0)
    xorBytes t (aes256 (k.take 32) (xorBytes t ((bytes.drop (16 * i)).take 16))))

end Sys2Proof.Machine
end

