-- ==== Sys2Proof/Machine/Queues.lean ====
section
/-!
DEFINITION. Queues and packets: descriptors, errors, the taking of packets, monitored lines, and the device-side launch
(03 R70-R79, R87-R90; 08 R212; 15 R408).
-/

namespace Sys2Proof.Machine

open Sys2Proof

/-! ## Queues of a span (03 Table 3-1) -/

/-- Queues of a span code. -/
def spanQueues (span : Nat) : Nat := 128 * spanDies span

/-! ## Accesses of a dispatch unit -/

/-- Physical places of n bytes of a context as a dispatch unit reaches them. -/
def unitPlaces (s : State) (die ctx : Nat) (need : Need) (a n : Nat) : Option (List Nat) :=
  match physBytes s (xlateIn s die ctx [] need) a n with
  | .error _ => none
  | .ok ps => if (routeFault s ps).isSome then none else some ps

/-- n bytes of a context. -/
def unitRead (s : State) (die ctx a n : Nat) : Option (List Byte) :=
  (unitPlaces s die ctx .read a n).map (fun ps => ps.map (loadByte s))

/-- A write of a line at its home by a unit that keeps no copies, under a quota and with a class: an engine that owns the line writes its
bytes first, other copies are invalidated, and monitors wake (07 R185-R187; 08 R207, R212). It waits for what is in progress on the line
and for a pin of it (07 R184; 08 R206). -/
def deviceTake (q : BitVec 64) (cls l : Nat) (s : State) : State :=
  let u := recallEngines l s
  if takeFree u nobody l then uncachedWrite l (homeUse q cls l true u) else stall u

/-- A read of a line at its home by such a unit: an owner of the line answers as to any read (08 R207, R209). -/
def deviceLook (q : BitVec 64) (cls l : Nat) (s : State) : State :=
  let u := homeUse q cls l false (recallEngines l s)
  if readFree u l then (if ownLine u l then homeLook l u else proxyDemote l u) else stall u

/-- Write bytes so, performed at device scope; those of region 2 are contributions (02 R59). -/
def deviceWrite (q : BitVec 64) (cls : Tab Nat) (ps : List Nat) (bytes : List Byte) (s : State) : State :=
  let cells := ps.zip bytes
  let t := ((linesOf ps).filter cacheable).foldl (fun t l => deviceTake q (Tab.get 0 cls l) l t) s
  reduceCells (cells.filter (fun c => paRegion c.1 == 2)) (memWrite t (cells.filter (fun c => paRegion c.1 != 2)))

/-- Read bytes so; those of host memory wait for a port (02 Table 2-3). -/
def deviceReads (q : BitVec 64) (cls : Tab Nat) (ps : List Nat) (s : State) : State :=
  ((linesOf ps).filter cacheable).foldl (fun t l => deviceLook q (Tab.get 0 cls l) l t) (if hostReadFree s ps then s else stall s)

/-- The quota that governs what a context fills (07 R187). -/
def ctxQuota (s : State) (ctx : Nat) : BitVec 64 := (ctxGet s ctx).quota

/-- The page classes of the lines of n bytes of a context, as a dispatch unit translates them (07 R186). -/
def unitClasses (s : State) (die ctx a n : Nat) : Tab Nat := classesOf (lineEntriesIn s (fun b => lookup s die ctx b []) [a] n)

/-- What a dispatch unit's read of n bytes of a context leaves. -/
def unitSees (die ctx a n : Nat) (s : State) : State :=
  match unitPlaces s die ctx .read a n with
  | some ps => deviceReads (ctxQuota s ctx) (unitClasses s die ctx a n) ps s
  | none => s

/-- Write bytes of a context, where they translate. -/
def unitWrite (die ctx a : Nat) (bytes : List Byte) (s : State) : Option State :=
  (unitPlaces s die ctx .write a bytes.length).map
    (fun ps => deviceWrite (ctxQuota s ctx) (unitClasses s die ctx a bytes.length) ps bytes s)

/-! ## Queues (R70, R71) -/

/-- A queue by its global number. -/
def findQueue (s : State) (gq : Nat) : Option Queue := s.queues.find? (fun q => q.gq == gq)

/-- Change a queue. -/
def modQueue (gq : Nat) (f : Queue → Queue) (s : State) : State :=
  { s with queues := s.queues.map (fun q => if q.gq = gq then f q else q) }

/-- An idle queue. -/
def idleQueue (gq ctx idx : Nat) : Queue :=
  { gq := gq, ctx := ctx, idx := idx, ring := 0, windex := 0, rindex := 0, errrec := 0, slots := 0, prio := 0,
    devFed := false, enable := false, vector := 0, next := 0, code := 0, waitFor := none, window := [], stopped := false,
    server := gq / 128 }

/-- The descriptor breaks Table 3-4 (R71). -/
def queueBad (bs : List Byte) : Bool :=
  let v := field bs 35 34
  !(decide (4 ≤ field bs 32 32) && decide (field bs 32 32 ≤ 16)) || field bs 7 0 % 4096 != 0 || field bs 15 8 % 128 != 0 ||
    field bs 23 16 % 8 != 0 || field bs 31 24 % 16 != 0 || v == 1 || decide (2047 < v) ||
    field bs 33 33 / 4 % 16 != 0 || !zeroBytes bs 63 36

/-- Raise the MSI-X vector of a queue if one is set: 2-2,047 (02 R46, Table 3-4). -/
def raiseVector (v : Nat) (s : State) : State :=
  if 2 ≤ v ∧ v ≤ 2047 then raiseMsix v s else s

/-- The I/O die of the active host port. -/
def activeIo (s : State) : Nat := s.host.active

/-- The active I/O die is released, so that BAR0 and BAR2 hold what the manual gives (01 R14). -/
def activeReleased (s : State) : Bool := s.pkg.relIo.getLsbD (activeIo s)

/-- The host receives an answer. -/
def respond (r : Resp) (s : State) : State := { s with host := { s.host with resp := s.host.resp ++ [r] } }

/-- A host write of a register: before the I/O die is released it completes with Unsupported Request (01 R14). -/
def hostWrite (f : State → State) (s : State) : State := if activeReleased s then f s else respond .ur s

/-- A queue error: the record is written where it can be, the vector raised, and the queue stops (R74). -/
def stopQueue (gq code n : Nat) (s : State) : State :=
  match findQueue s gq with
  | none => s
  | some q =>
    let t := match unitWrite q.server q.ctx q.errrec (bytesOf 4 code ++ bytesOf 4 0 ++ bytesOf 8 n) s with
      | some t => t
      | none => logEvent (.queueError gq code) s
    raiseVector q.vector (modQueue gq (fun q => { q with code := code }) t)

/-- A queue as its descriptor's 64 bytes give it, keeping where it stands. -/
def queueOf (q : Queue) (bs : List Byte) : Queue :=
  { q with
    ring := field bs 7 0, windex := field bs 15 8, rindex := field bs 23 16, errrec := field bs 31 24
    slots := field bs 32 32, prio := field bs 33 33 % 4, devFed := bit (field bs 33 33) 6, enable := bit (field bs 33 33) 7
    vector := field bs 35 34 }

/-- The read index in memory; where it cannot be read, where the queue stood, the model's choice (log 42). -/
def readIndex (s : State) (q : Queue) : Nat :=
  match unitRead s q.server q.ctx q.rindex 8 with
  | some bs => numOf bs
  | none => q.next

/-- Register a line as monitored with its home, or poll it where the 4,096 entries of that memory die are taken (08 R212). A line of
another module is registered there, which is taken to find room (log 41). -/
def monitorLine (die line : Nat) (s : State) : State :=
  if s.coh.monitors.any (fun m => m.line == line && m.die == die) then s
  else if !ownLine s line || s.coh.monitors.countP (fun m => ownLine s m.line && lineDie s m.line == lineDie s line) < 4096 then
    { s with coh := { s.coh with
        monitors := s.coh.monitors ++ [{ line := line, die := die, woken := false }]
        polling := s.coh.polling.filter (fun p => p != (die, line)) } }
  else { s with coh := { s.coh with polling := (die, line) :: s.coh.polling.filter (fun p => p != (die, line)) } }

/-- Monitor the line of a virtual address. -/
def monitorAt (die ctx a : Nat) (s : State) : State :=
  match unitPlaces s die ctx .read a 1 with
  | some (p :: _) => monitorLine die (lineOf p) s
  | _ => s

/-- Register again the lines that a queue waits on, the write index and the word of a wait packet, for the unit that serves it
(R72, R75). -/
def watchQueue (q : Queue) (s : State) : State :=
  let t := if q.enable && q.code == 0 then monitorAt q.server q.ctx q.windex s else s
  match q.waitFor with
  | some (a, _) => monitorAt q.server q.ctx a t
  | none => t

/-- The queues of a context run again: their lines are monitored. -/
def watchContext (ctx : Nat) (s : State) : State := (s.queues.filter (fun q => q.ctx == ctx)).foldl (fun t q => watchQueue q t) s

/-- Read a queue's descriptor (R71): a bad one stops it with QBADQ, or where its error record is misaligned leaves it idle
with its vector raised. A descriptor that cannot be read leaves the queue idle. -/
def readDescriptor (gq : Nat) (s : State) : State :=
  match findQueue s gq with
  | none => s
  | some q =>
    let s := unitSees q.server q.ctx ((ctxGet s q.ctx).qtable + 64 * q.idx) 64 s
    match unitRead s q.server q.ctx ((ctxGet s q.ctx).qtable + 64 * q.idx) 64 with
    | none => modQueue gq (fun q => { q with enable := false }) s
    | some bs =>
      let x := queueOf q bs
      if !x.enable then modQueue gq (fun q => { queueOf q bs with code := 0 }) s
      else if queueBad bs then
        if x.errrec % 16 ≠ 0 then
          raiseVector x.vector
            (modQueue gq (fun q => { queueOf q bs with enable := false, code := 0 }) s)
        else stopQueue gq 7 (readIndex s x) (modQueue gq (fun q => queueOf q bs) s)
      else monitorAt x.server x.ctx x.windex (unitSees x.server x.ctx x.rindex 8 <| modQueue gq (fun q => { queueOf q bs with code := 0, next := readIndex s x }) s)

/-- The queues of a new context. -/
def makeQueues (ctx : Nat) (s : State) : State :=
  let c := ctxGet s ctx
  let ids := List.range (spanQueues c.span)
  let t := { s with queues := s.queues ++ ids.map (fun i => idleQueue (128 * c.first + i) ctx i) }
  ids.foldl (fun t i => readDescriptor (128 * c.first + i) t) t

/-- The packet at which a queue stopped: the one whose wait word it holds later packets for, or the next (R74, R75). -/
def stopPacket (q : Queue) : Nat := if q.waitFor.isSome then q.next - 1 else q.next

/-- QUEUE_RESUME: a write has left the error record's code word zero (R71, R74). The descriptor is read again, and a
stopped queue goes on at packet n, or at n + 1 where the type byte of packet n is zero; a wait that packet n asked for then stands. Where
that byte cannot be read it goes on at packet n, the model's choice (log 42). After QBADQ packet n is that of the read index, read again
under the corrected descriptor, not the number in the error record: the model's choice, where R74 does not tell the two apart (log 45). -/
def execQueueResume (gq : Nat) (s : State) : Out :=
  .next (match findQueue s gq with
    | none => s
    | some q =>
      let s := unitSees q.server q.ctx q.errrec 4 s
      match unitRead s q.server q.ctx q.errrec 4 with
      | none => s
      | some bs =>
        if numOf bs ≠ 0 ∨ (ctxGet s q.ctx).destroying then s
        else
          let t := readDescriptor gq s
          match findQueue t gq with
          | none => t
          | some r =>
            if q.code = 0 ∨ r.code ≠ 0 then t
            else
              let n := if q.code = 7 then r.next else stopPacket q
              match unitRead t r.server r.ctx (r.ring + 64 * (n % 2 ^ r.slots)) 1 with
              | some [b] =>
                if b = 0 then modQueue gq (fun x => { x with next := n + 1 }) t
                else modQueue gq (fun x => { x with next := n, waitFor := none }) t
              | _ => modQueue gq (fun x => { x with next := n, waitFor := none }) t)

/-! ## Group descriptors (R76, R77, R79) -/

/-- The descriptor that 128 bytes hold. -/
def descOf (a : Nat) (bs : List Byte) : Desc :=
  { addr := a, entry := field bs 7 0, waves := field bs 8 8, gflags := field bs 9 9, lsize := field bs 15 12,
    carried := field bs 19 16, poolv := field bs 20 20, poolx := field bs 21 21, privsz := field bs 23 22,
    roles := field bs 31 24,
    counts := (List.range 16).map (fun w => (field bs (33 + 2 * w) (32 + 2 * w) % 32, field bs (33 + 2 * w) (32 + 2 * w) / 256 % 32))
    carryv := BitVec.ofNat 128 (field bs 79 64), carryx := BitVec.ofNat 16 (field bs 81 80),
    mode := BitVec.ofNat 32 (field bs 87 84) }

/-- The slot needs more than its register and tile files hold (R77, 05 R126). -/
def slotOver (d : Desc) (counts : Nat → Nat × Nat) (slot : Nat) : Bool :=
  decide (96 < (slotNeed d counts slot).1) || decide (32 < (slotNeed d counts slot).2)

/-- The descriptor is invalid (R79) (log 28). -/
def descBad (bs : List Byte) (d : Desc) : Bool :=
  d.entry % 4 != 0 || d.waves == 0 || decide (16 < d.waves) || decide (4 ≤ d.gflags) || !zeroBytes bs 11 10 ||
    d.lsize % 1024 != 0 || decide (524288 < d.lsize) || d.carried % 32 != 0 || decide (d.lsize < d.carried) ||
    decide (96 < d.poolv) || decide (32 < d.poolx) ||
    (List.range 16).any (fun w => decide (16 < (d.count w).1) || decide (16 < (d.count w).2) ||
      Nat.land (field bs (33 + 2 * w) (32 + 2 * w)) 0xE0E0 != 0) ||
    decide (32 < popcount d.carryv.toNat 128) || decide (4 < popcount d.carryx.toNat 16) ||
    (List.range 4).any (slotOver d d.count) || !zeroBytes bs 83 82 || decide (2 ^ 22 ≤ d.mode.toNat) || !zeroBytes bs 127 88

/-- Groups that fit an empty core (R83). -/
def fitEmpty (d : Desc) : Nat :=
  let perSlot (i : Nat) : Nat :=
    let n := slotNeed d d.count i
    let w := (wavesOn d.waves i).length
    min (if n.1 = 0 then 65536 else 96 / n.1) (min (if n.2 = 0 then 65536 else 32 / n.2) (if w = 0 then 65536 else 16 / w))
  (List.range 4).foldl (fun m i => min m (perSlot i)) (if d.lsize = 0 then 65536 else 524288 / d.lsize)

/-! ## Taking packets (R72-R75) -/

/-- What a packet comes to. -/
inductive Packet where
  | none
  | unready
  | error (code : Nat)
  | wait (value addr : Nat)
  | grid (g : Grid)

/-- A wait packet (R75). -/
def waitPacket (s : State) (q : Queue) (bs : List Byte) : Packet :=
  let addr := field bs 23 16
  if !zeroBytes bs 1 1 || field bs 3 3 / 16 != 0 || !zeroBytes bs 7 4 || !zeroBytes bs 63 24 || addr % 8 != 0 then .error 1
  else if (unitPlaces s q.server q.ctx .read addr 8).isNone then .error 5
  else .wait (field bs 15 8) addr

/-- A grid packet (R75, R79, R83, R97). One with several defects reports the first met in this order: its reserved bytes and flags
(QBADPKT), the grid (QGRID), the translation of the descriptor (QXLATE), the descriptor (QBADDESC), the room (QNOFIT); and before them
an index that does not translate, QOVERRUN, and a ring that does not translate (headPacket). The spec gives no order: the model's choice
(log 45). -/
def gridPacket (s : State) (q : Queue) (bs : List Byte) : Packet :=
  let fl := field bs 1 1
  let gx := field bs 7 4
  let gy := field bs 11 8
  let gz := field bs 15 12
  let gdesc := field bs 23 16
  let c := ctxGet s q.ctx
  if decide (8 ≤ fl) || field bs 3 3 / 16 != 0 || !zeroBytes bs 63 56 then .error 1
  else if gx * gy * gz = 0 ∨ 2 ^ 32 < gx * gy * gz then .error 6
  else
    match unitRead s q.server q.ctx gdesc 128 with
    | none => .error 5
    | some ds =>
      let d := descOf gdesc ds
      if gdesc % 128 ≠ 0 ∨ descBad ds d then .error 2
      else if areaSize c < recordSize d then .error 3
      else if bit fl 0 ∧ fitEmpty d * 32 * spanDies c.span < gx * gy * gz then .error 3
      else .grid { ctx := q.ctx, queue := q.idx, packet := q.next, gx := gx, gy := gy, gz := gz, args := field bs 31 24,
                   done := field bs 39 32, spill := field bs 47 40, priv := field bs 55 48, flags := fl, desc := d, next := 0,
                   retired := 0, err := false, preempted := false }

/-- The packet at the head of a queue, once the write index covers it and its type byte is set (R72, R74). -/
def headPacket (s : State) (q : Queue) : Packet :=
  match unitPlaces s q.server q.ctx .both q.windex 8, unitPlaces s q.server q.ctx .both q.rindex 8 with
  | some wi, some _ =>
    let w := numOf (wi.map (loadByte s))
    if 2 ^ q.slots < w - q.next then .error 4
    else if w ≤ q.next then .none
    else
      match unitPlaces s q.server q.ctx .both (q.ring + 64 * (q.next % 2 ^ q.slots)) 64 with
      | none => .error 5
      | some ps =>
        let bs := ps.map (loadByte s)
        match field bs 0 0 with
        | 0 => .unready
        | 1 => gridPacket s q bs
        | 2 => waitPacket s q bs
        | _ => .error 1
  | _, _ => .error 5

/-- Groups of a grid. -/
def Grid.size (g : Grid) : Nat := g.gx * g.gy * g.gz

/-- An earlier grid of the queue whose packet number is the same modulo 2,048 has a group not completed: not placed, or placed and not
complete in the reorder window (04 R95). -/
def handleTaken (s : State) (q : Queue) : Bool :=
  s.grids.any (fun g => g.ctx == q.ctx && g.queue == q.idx && g.packet % 2048 == q.next % 2048 &&
    (decide (g.next < g.size) || q.window.any (fun e => e.packet == g.packet && decide (e.complete < e.groups))))

/-- The packet has been read: its type byte is cleared, and the read index moves on (R72). -/
def consumePacket (q : Queue) (s : State) : State :=
  let t := (unitWrite q.server q.ctx (q.ring + 64 * (q.next % 2 ^ q.slots)) [0] s).getD s
  let t := (unitWrite q.server q.ctx q.rindex (bytesOf 8 (q.next + 1)) t).getD t
  modQueue q.gq (fun x => { x with next := q.next + 1 }) t

/-- The word of a wait packet has reached its value (R75). -/
def waitMet (s : State) (q : Queue) : Bool :=
  match q.waitFor with
  | none => true
  | some (addr, value) =>
    match unitRead s q.server q.ctx addr 8 with
    | some bs => decide (value ≤ numOf bs)
    | none => false

/-- The queue runs: enabled, without error, its context active and not being destroyed, and its hold lifted. -/
def queueRuns (s : State) (q : Queue) : Bool :=
  q.enable && q.code == 0 && !q.stopped && (ctxGet s q.ctx).state == 1 && !(ctxGet s q.ctx).destroying

/-- The word that a queue waits for no longer translates, or its page lacks rd (R75). -/
def waitLost (s : State) (q : Queue) : Bool :=
  q.waitFor.any (fun p => (unitPlaces s q.server q.ctx .read p.1 8).isNone)

/-- What the unit reads to take a packet. -/
def takeLooks (q : Queue) (p : Packet) (s : State) : State :=
  let t := unitSees q.server q.ctx q.windex 8 s
  let slot (u : State) : State := unitSees q.server q.ctx (q.ring + 64 * (q.next % 2 ^ q.slots)) 64 u
  match p with
  | .none => t
  | .unready => slot t
  | .error _ => slot t
  | .wait _ addr => unitSees q.server q.ctx addr 8 (slot t)
  | .grid g => unitSees q.server q.ctx g.desc.addr 128 (slot t)

/-- PACKET_TAKE: the head packet is taken; one whose type byte is zero is monitored (R72), and an error stops the queue (R74). -/
def execPacketTake (gq : Nat) (s : State) : Out :=
  .next (match findQueue s gq with
    | none => s
    | some q =>
      if !queueRuns s q then s
      else if waitLost s q then stopQueue gq 5 (stopPacket q) s
      else if !waitMet s q then s
      else
        let t := takeLooks q (headPacket s q) (modQueue gq (fun x => { x with waitFor := none }) s)
        match headPacket s q with
        | .none => t
        | .unready => monitorAt q.server q.ctx (q.ring + 64 * (q.next % 2 ^ q.slots)) t
        | .error code => stopQueue gq code q.next t
        | .wait value addr =>
          monitorAt q.server q.ctx addr (consumePacket q (modQueue gq (fun x => { x with waitFor := some (addr, value) }) t))
        | .grid g => if handleTaken s q then t else
          let u := modQueue gq (fun x => { x with preempts := x.preempts.erase q.next }) (consumePacket q t)
          { u with grids := u.grids ++ [{ g with preempted := q.preempts.contains q.next }] })

/-! ## Monitors (08 R212) -/

/-- A woken dispatch unit looks again at what its queues wait for: a wait ends, or its queue stops where the word is no longer to be
read (R75). -/
def lookAgain (die : Nat) (s : State) : State :=
  (s.queues.filter (fun q => q.server == die && q.waitFor.isSome && queueRuns s q)).foldl (fun t q =>
    let t := q.waitFor.elim t (fun p => unitSees q.server q.ctx p.1 8 t)
    if waitLost t q then stopQueue q.gq 5 (stopPacket q) t
    else if waitMet t q then modQueue q.gq (fun x => { x with waitFor := none }) t
    else t) s

/-- MONITOR_WAKE: every unit that monitors the line is woken after a write of it. -/
def execMonitorWake (line : Nat) (s : State) : Out :=
  .next (
    let ms := s.coh.monitors.filter (fun m => m.line == line && m.woken)
    let t := { s with coh := { s.coh with monitors := s.coh.monitors.map (fun m =>
      if m.line = line then { m with woken := false } else m) } }
    ms.foldl (fun u m => lookAgain m.die u) t)

/-- MONITOR_POLL: a unit whose registration was refused reads the line, and registers where there is room by now. -/
def execMonitorPoll (die line : Nat) (s : State) : Out :=
  .next (if s.coh.polling.contains (die, line) then monitorLine die line (lookAgain die s) else s)

/-! ## LAUNCH (R87-R90, 15 R408) -/

/-- LAUNCH: each active non-helper lane names a 64-byte descriptor; it waits for its key at device scope, or at fabric scope where that is
captured (R88; 09 R226). -/
def execLaunch (v : BitVec 7) (b : BitVec 2) (k : BitVec 4) (s : State) : Out :=
  if em s = 0 then .next (advance s)
  else commit s (do
    check (vHeld s v.toNat) (trapOf causeIllopnd 1)
    if nonHelperMask s = 0 then .ok (advance s)
    else do
      let ids ← consumeAt s k.toNat
      let addrs := (lanesOf (nonHelperMask s)).map (fun l => (l, alignDown (laneAddr s b v.toNat l) 64))
      .ok (advance (issueOp s
        { kind := .launch addrs, produce := 0, consume := k.toNat, waits := ids, scope := if scope s = 5 then 5 else 4, strong := true,
          flag := assignedFlag s })))

/-- A child: its lane, the descriptor's bytes and its target index. -/
structure Child where
  lane : Nat
  bytes : List Byte
  target : Nat

/-- The descriptor of a lane, as the wave reads it (R89 step 1). -/
def readChild (s : State) (x : Nat × Nat) : Nat × Except LFault Child :=
  match accessNow s .read x.2 64 with
  | .error f => (x.1, .error f)
  | .ok ps =>
    let v := ownView s
    match poisonCause ((readSectors ps).map (sectorDev v)) with
    | some c => (x.1, .error { cause := causePoison, detail := c, addr := x.2 % 2 ^ 56 })
    | none =>
      let bs := ps.map (loadByte v)
      (x.1, .ok { lane := x.1, bytes := bs, target := bits (field bs 3 0) 27 16 })

/-- The queue that a child names. -/
def childQueue (s : State) (c : Child) : Option Queue :=
  s.queues.find? (fun q => q.ctx == s.g.ctx && q.idx == c.target)

/-- Causes 0, 1 and 3 of R89 for a child, the lowest it meets. -/
def childCause (s : State) (c : Child) : Option Nat :=
  match childQueue s c with
  | none => some 0
  | some q =>
    if !q.enable || q.code != 0 || !q.devFed then some 1
    else if field c.bytes 0 0 = 0 then some 3
    else none

/-- Fault of the lanes in one place: the access of a child's index words (R89 step 3). -/
def indexFault (s : State) (c : Child) : Except LFault Unit :=
  match childQueue s c with
  | none => .ok ()
  | some q =>
    match accessNow s .both q.windex 8 with
    | .error f => .error f
    | .ok wi =>
      match accessNow s .both q.rindex 8 with
      | .error f => .error f
      | .ok ri =>
        let first := poisonCause ((readSectors wi).map (sectorDev s))
        match poisonCause ((readSectors (wi ++ ri)).map (sectorDev s)) with
        | some d =>
          let a := if first.isSome then q.windex else q.rindex
          .error { cause := causePoison, detail := d, addr := a % 2 ^ 56 }
        | none => .ok ()

/-- A number in memory at a virtual address of the wave's context. -/
def wordAtVa (s : State) (a n : Nat) : Nat :=
  match accessPhys s .read a n with
  | .ok ps => numOf (ps.map (loadByte s))
  | .error _ => 0

/-- Free slots of a queue (R73). -/
def freeSlots (s : State) (q : Queue) : Nat := 2 ^ q.slots - (wordAtVa s q.windex 8 - wordAtVa s q.rindex 8)

/-- The lanes with a cause as a fault each. -/
def causeFaults (xs : List (Nat × Option Nat)) : List (Nat × LFault) :=
  let least := (xs.filterMap (·.2)).foldl (fun m c => match m with
    | none => some c
    | some x => some (min x c)) (none : Option Nat)
  xs.filterMap (fun x => if x.2.isSome ∧ x.2 = least then some (x.1, { cause := causeLaunchq, detail := x.2.getD 0, addr := 0 }) else none)

/-- Everything R89 checks, in its order, before any child is enqueued. -/
def launchCheck (s : State) (addrs : List (Nat × Nat)) : Except Trap (List Child) := do
  let xs := addrs.map (readChild s)
  lanesOk xs
  let cs := xs.filterMap (fun x => match x.2 with
    | .ok c => some c
    | .error _ => none)
  match lanesTrap (causeFaults (cs.map (fun c => (c.lane, childCause s c)))) with
  | some t => .error t
  | none =>
    lanesOk (cs.map (fun c => (c.lane, indexFault s c)))
    let full (c : Child) : Bool := match childQueue s c with
      | none => false
      | some q => decide (freeSlots s q < cs.countP (fun d => d.target == c.target))
    match lanesTrap (causeFaults (cs.map (fun c => (c.lane, if full c then some 2 else none)))) with
    | some t => .error t
    | none => .ok cs

/-- Enqueue one child: the atomic add on the write index, the body, then the header (R73, R87). R89 checks no access to the ring; bytes
that do not translate, or whose page lacks w, are dropped, the model's choice (log 42). -/
def enqueueChild (s : State) (c : Child) : State :=
  match childQueue s c with
  | none => s
  | some q =>
    let n := wordAtVa s q.windex 8
    let put (a : Nat) (bs : List Byte) (t : State) : State := match accessPhys t .write a bs.length with
      | .ok ps => deviceWrite (ctxQuota t t.g.ctx) (lineClasses t [a] bs.length) ps bs (installAll t [a] bs.length)
      | .error _ => t
    let slot := q.ring + 64 * (n % 2 ^ q.slots)
    put slot (c.bytes.take 4) (put (slot + 4) (c.bytes.drop 4) (put q.windex (bytesOf 8 (n + 1)) s))

/-- The addresses of the index words of children. -/
def indexWords (s : State) (cs : List Child) : List Nat :=
  (cs.filterMap (childQueue s)).flatMap (fun q => [q.windex, q.rindex])

/-- What the reads of a LAUNCH leave (R89, steps 1 and 3): translations, lines, and the poison pattern in sectors found to mismatch
(01 R33). -/
def launchReads (addrs : List (Nat × Nat)) (s : State) : State :=
  let xs := addrs.map (readChild s)
  let cs := xs.filterMap (fun x => match x.2 with
    | .ok c => some c
    | .error _ => none)
  let words := if xs.all (fun x => x.2.toBool) && cs.all (fun c => (childCause s c).isNone) then indexWords s cs else []
  let secs (a n : Nat) : List Nat := match accessPhys s .read a n with
    | .ok ps => (readSectors ps).filter (fun x => sectorDev s x != 0)
    | .error _ => []
  let t := nowReads words 8 (nowReads (addrs.map (·.2)) 64 s)
  (addrs.flatMap (fun x => secs x.2 64) ++ words.flatMap (fun a => secs a 8)).foldl poison t

/-- The agent of an operation in focus, as the wave or as its lane. -/
def asAgent (o : Op) (f : State → State) (s : State) : State :=
  withWave o.owner (fun t => match o.lane with
    | none => f t
    | some l =>
      match t.w.ejected.find? (fun e => e.lane == l) with
      | none => f t
      | some e => laneBack t e (f (laneView t e))) s

/-- A LAUNCH whose consume is performed at device scope: its checks, then its children; its flag sets and it is complete. -/
def performLaunch (o : Op) (addrs : List (Nat × Nat)) (s : State) : State :=
  match launchCheck s addrs with
  | .error t => modOp o.id (fun p => { p with
      fault := some { cause := t.cause, detail := t.detail, addr := t.addr, slots := 0 }, faultLanes := t.lanes.getD 0 })
      (launchReads addrs s)
  | .ok cs => cs.foldl enqueueChild (launchReads addrs s)

/-- The launch is done unless it met a fault. -/
def finishLaunch (o : Op) (s : State) : State :=
  match findOp s o.id with
  | none => s
  | some p => if p.fault.isSome then s else completeOp p s

/-- LAUNCH_ENQUEUE_COMPLETE. -/
def execLaunchEnqueueComplete (op : Nat) (s : State) : Out :=
  .next (match findOp s op with
    | none => s
    | some o =>
      match o.kind with
      | .launch addrs =>
        if o.fault.isNone && waitsDone s o then settleAll (finishLaunch o (asAgent o (performLaunch o addrs) s)) else s
      | _ => s)

end Sys2Proof.Machine
end

