-- ==== Sys2Proof/Machine/Placement.lean ====
section
/-!
DEFINITION. Placing groups: launch state, room on a core, phase records and their reservation, the order in which queues
are served, and the completion and retirement of groups (03 R77-R86; 04 R95-R100; 07 R179).
-/

namespace Sys2Proof.Machine

open Sys2Proof

/-! ## Room on a core (03 R77, R81; 04 R100) -/

/-- Blocks or tiles that a resident group holds set aside on a slot: those of its waves and its pool. -/
def groupNeed (g : Group) (vector : Bool) (slot : Nat) : Nat :=
  (g.peers.filter (fun w => slotOf w.idx == slot)).foldl (fun n w => n + heldUnits w vector) (poolGet g vector slot)

/-- The groups on a core. -/
def groupsOn (s : State) (die core : Nat) : List Group := (allGroups s).filter (fun g => g.die == die && g.core == core)

/-- Sum over groups. -/
def sumOf (f : Group → Nat) (gs : List Group) : Nat := gs.foldl (fun n g => n + f g) 0

/-- The cluster is empty, or its fusion matches the group's (R81). -/
def clusterOk (s : State) (die core : Nat) (g : Group) : Bool :=
  ((allGroups s).filter (fun h => h.die == die && h.core / 4 == core / 4)).all (fun h => bit h.desc.gflags 0 == bit g.desc.gflags 0)

/-- A compute die in service takes phases. -/
def diePlaces (s : State) (die : Nat) : Bool :=
  s.pkg.ready.cdie.getLsbD die && !s.pkg.restartC.getLsbD die

/-- A group fits a core (R77, R81, R100; 07 R175). -/
def fits (s : State) (die core : Nat) (g : Group) : Bool :=
  let gs := groupsOn s die core
  decide (core < 32) && diePlaces s die && clusterOk s die core g &&
    decide (sumOf (·.desc.lsize) gs + g.desc.lsize ≤ 524288) &&
    (List.range 4).all (fun i =>
      decide (sumOf (fun h => groupNeed h true i) gs + groupNeed g true i ≤ 96) &&
        decide (sumOf (fun h => groupNeed h false i) gs + groupNeed g false i ≤ 32) &&
        decide (sumOf (fun h => h.peers.countP (fun w => slotOf w.idx == i)) gs +
          g.peers.countP (fun w => slotOf w.idx == i) ≤ 16))

/-! ## Phase records (04 R96-R98) -/

/-- The record of a group. -/
def recordOf (s : State) (h : BitVec 64) : Option Record := s.records.find? (fun r => r.handle == h)

/-- Change a record. -/
def modRecord (h : BitVec 64) (f : Record → Record) (s : State) : State :=
  { s with records := s.records.map (fun r => if r.handle = h then f r else r) }

/-- Free a record. -/
def dropRecord (h : BitVec 64) (s : State) : State := { s with records := s.records.filter (fun r => r.handle != h) }

/-- The lowest offset of a context's area with room for a record (R97). -/
def recordRoom (s : State) (ctx size : Nat) : Option Nat :=
  let rs := s.records.filter (fun r => r.ctx == ctx)
  let free (o : Nat) : Bool := decide (o + size ≤ areaSize (ctxGet s ctx)) &&
    rs.all (fun r => decide (o + size ≤ r.off) || decide (r.off + r.size ≤ o))
  ((0 :: rs.map (fun r => r.off + r.size)).filter free).foldl (fun m o => match m with
    | none => some o
    | some x => some (min x o)) none

/-- The flags of a record (Table 4-3): restartable phases, co-resident, fused L1. -/
def recordFlags (g : Group) : Nat :=
  (if bit g.desc.gflags 1 then 1 else 0) + (if g.coresident then 2 else 0) + (if bit g.desc.gflags 0 then 4 else 0)

/-- Waves of a group that have exited, as a mask. -/
def exitedMask (g : Group) : Nat := g.peers.foldl (fun m w => if w.status = .exited then m ||| 2 ^ w.idx else m) 0

/-- The head of a record (Table 4-3). -/
def recordHead (r : Record) (g : Group) : List Byte :=
  bytesOf 1 r.selector ++ bytesOf 1 r.kind ++ bytesOf 1 (recordFlags g) ++ bytesOf 1 0 ++ bytesOf 4 r.phase ++
    bytesOf 8 (slotSize g.desc) ++ bytesOf 8 g.desc.addr ++ bytesOf 8 r.handle.toNat ++ bytesOf 4 (exitedMask g) ++
    bytesOf 4 g.x.toNat ++ bytesOf 4 g.y.toNat ++ bytesOf 4 g.z.toNat ++ List.replicate 208 0

/-- Write the head of a group's record, performed at device scope (R98). -/
def writeHead (r : Record) (g : Group) (s : State) : State :=
  let a := storagePlace s (recordBase s r)
  deviceWrite (ctxQuota s r.ctx) [] ((List.range 256).map (a + ·)) (recordHead r g) s

/-- The lines of a state slot are written at their homes, under the quota of the context and with class 0 (07 R186, R187): caches that
hold one give it up. -/
def reachLines (q : BitVec 64) (ls : List Nat) (s : State) : State :=
  ls.foldl (fun t l =>
    let held := t.coh.l2.any (fun x => x.line == l) || t.coh.home.any (fun e => e.line == l) || t.coh.monitors.any (fun m => m.line == l)
    if held then deviceTake q 0 l t else homeUse q 0 l true t) s

/-- Write the state of a group into a slot of its record. -/
def writeSlot (r : Record) (slot : Nat) (full : Bool) (g : Group) (s : State) : State :=
  putSlot r slot full g (reachLines (ctxQuota s r.ctx) (slotLines s r slot full g) s)

/-- Commit a state of a group into the free slot of its record and flip the selector with one write (R98). A record whose group leaves its
core is the youngest of the continuations (R99). -/
def commitRecord (kind phase : Nat) (heldBack : Bool) (g : Group) (s : State) : State :=
  match recordOf s (groupHandle g) with
  | none => s
  | some r =>
    let r' := { r with selector := 1 - r.selector, kind := kind, phase := phase, heldBack := heldBack, saved := some g, other := r.saved }
    writeHead r' g (writeSlot r' r'.selector (kind != 1) g { s with records := s.records.filter (fun x => x.handle != r.handle) ++ [r'] })

/-- Reserve the record of a group that is placed for the first time; its launch state is committed (R97). -/
def reserveRecord (g : Group) (s : State) : Option (State × Record) :=
  match recordRoom s g.ctx (recordSize g.desc) with
  | none => none
  | some o =>
    let c := ctxGet s g.ctx
    let e := (Tab.get 0 c.epochs (o / 4096) + 1) % 256
    let r : Record := { ctx := g.ctx, off := o, size := recordSize g.desc, epoch := e, handle := groupHandle g, selector := 0,
                        kind := 1, phase := 0, heldBack := false, saved := none }
    some ({ (ctxPut s g.ctx { c with epochs := Tab.put 0 c.epochs (o / 4096) e }) with records := s.records ++ [r] }, r)

/-! ## Launch state (03 R78) -/

/-- Linear group index of indices (R78). -/
def linearOf (gr : Grid) (n : Nat) : Nat × Nat × Nat := (n % gr.gx, n / gr.gx % gr.gy, n / gr.gx / gr.gy)

/-- The name of wave i of a group (09 Table 9-4). -/
def waveName (s : State) (ctx off epoch i : Nat) : BitVec 64 :=
  BitVec.ofNat 64 (s.fab.module % 64 * 2 ^ 58 + ctx % 32 * 2 ^ 53 + i % 16 * 2 ^ 49 + off / 4096 % 2 ^ 28 * 2 ^ 12 + epoch % 256 * 2 ^ 4)

/-- Scalar registers at launch. -/
def launchScalars (g : Group) : Tab Word :=
  [(0, g.x), (1, g.y), (2, g.z), (48, BitVec.ofNat 32 g.args), (49, BitVec.ofNat 32 (g.args / 2 ^ 32)),
    (60, 0xFFFFFFFF), (61, 0xFFFFFFFF), (62, 0xFFFFFFFF)].foldl (fun t p => Tab.put 0 t p.1 p.2) []

/-- Wave i of a group at launch. An entry address with bits [63:56] set is not said to raise anything: pc takes its bits [55:0], the
model's choice (log 42). VRAND is seeded as 14 R366 gives. -/
def launchWave (g : Group) (spill : Nat) (name : BitVec 64) (i : Nat) : Wave :=
  { idx := i, handle := handleOf g i, name := name, status := .ready, pc := BitVec.ofNat 56 g.desc.entry
    sreg := launchScalars g, vblocks := (g.desc.count i).1, tiles := (g.desc.count i).2, mode := g.desc.mode
    role := BitVec.ofNat 32 (bits g.desc.roles (4 * i + 3) (4 * i))
    rand := { x := BitVec.ofNat 32 g.linear, y := BitVec.ofNat 32 i, z := 0x6C078965, w := 0x9E3779B9 }
    spill := if spill = 0 then 0 else (spill + (g.linear * 16 + i) * 1024) % 2 ^ 56 }

/-- A pool of n units on every slot. -/
def fullPool (n : Nat) : Tab Nat := Tab.ofFn 0 4 (fun _ => n)

/-- Group n of a grid without its waves. -/
def bareGroup (gr : Grid) (n : Nat) : Group :=
  let p := linearOf gr n
  { ctx := gr.ctx, queue := gr.queue, packet := gr.packet, linear := n, x := BitVec.ofNat 32 p.1, y := BitVec.ofNat 32 p.2.1,
    z := BitVec.ofNat 32 p.2.2, desc := gr.desc, args := gr.args, privBase := gr.priv, coresident := bit gr.flags 0,
    vpool := fullPool gr.desc.poolv, xpool := fullPool gr.desc.poolx }

/-- Group n of a grid at launch. -/
def launchGroup (s : State) (gr : Grid) (n off epoch : Nat) : Group :=
  let g := bareGroup gr n
  { g with peers := (List.range gr.desc.waves).map (fun i => launchWave g gr.spill (waveName s gr.ctx off epoch i) i) }

/-! ## Taking a core -/

/-- Every line of the four L1s of a cluster leaves, a dirty one with its data (07 R179). -/
def flushCluster (die cluster : Nat) (s : State) : State :=
  (s.coh.l1.filter (fun x => x.die == die && x.core / 4 == cluster)).foldl (fun t x =>
    if x.st = .m ∨ x.st = .o then l1Return die x.core x.line t else l1Notice die x.core x.line t) s

/-- The cluster takes the group's fusion; a change first empties its L1s. -/
def fuse (die core : Nat) (g : Group) (s : State) : State :=
  let i := die * 8 + core / 4
  let want := bit g.desc.gflags 0
  if s.coh.fused.getLsbD i = want then s
  else
    let t := flushCluster die (core / 4) s
    { t with coh := { t.coh with fused := if want then t.coh.fused ||| BitVec.twoPow 256 i else t.coh.fused &&& ~~~(BitVec.twoPow 256 i) } }

/-- A group becomes resident on a core: its waves enter the sets of their slots, and its chains and held arrivals are of that core
(R111). -/
def settleOn (die core : Nat) (g : Group) (s : State) : State :=
  let h : Group := { g with die := die, core := core, chains := [], holds := [] }
  let t := fuse die core h { s with
    chains := s.chains.map (fun c => if c.group = groupHandle g then { c with die := die, core := core } else c)
    held := s.held.map (fun x => if x.group = groupHandle g then { x with die := die, core := core } else x) }
  (h.peers.filter (fun w => w.status != .exited)).foldl (fun u w => match w.status with
    | .yielded _ _ => u
    | _ => enterSlot die core (slotOf w.idx) w.handle u) { t with groups := insGroup h t.groups }

/-! ## Order of placement (03 R80-R82; 04 R99) -/

/-- A queue of a context by its index. -/
def ctxQueue (s : State) (ctx idx : Nat) : Option Queue := s.queues.find? (fun q => q.ctx == ctx && q.idx == idx)

/-- The grid is of the queue. -/
def ofQueue (q : Queue) (g : Grid) : Bool := g.ctx == q.ctx && g.queue == q.idx

/-- The grid that a queue places next: its earliest with a group not placed; behind a barrier flag, none until every
earlier grid is done (R80). -/
def headGrid (s : State) (q : Queue) : Option Grid :=
  match (s.grids.filter (ofQueue q)).find? (fun g => decide (g.next < g.size)) with
  | none => none
  | some g =>
    if bit g.flags 2 && (((s.grids.filter (ofQueue q)).head?.map (fun f => f.packet != g.packet)).getD false) then none
    else some g

/-- The reorder window has room for one more entry (R85). -/
def windowRoom (q : Queue) : Bool := decide (q.window.length < 256)

/-- Something a core could be given: a continuation with the core that it left, or the head group of a queue. -/
structure Cand where
  prio : Nat
  key : Nat
  group : Group
  whole : Bool
  fresh : Bool

/-- The continuations of a context that may be placed, oldest first (04 R99). -/
def continuations (s : State) (ctx : Nat) : List Cand :=
  s.records.filterMap (fun r =>
    if r.ctx = ctx ∧ !r.heldBack ∧ r.kind ≠ 3 ∧ !resident s r.handle then
      (recordGroup s r).bind (fun g => (ctxQueue s ctx g.queue).map (fun q =>
        { prio := q.prio, key := r.handle.toNat, group := g, whole := false, fresh := false }))
    else none)

/-- The heads of a context's queues in the order in which their packets were observed; a queue that has stopped places nothing
(R74). -/
def heads (s : State) (ctx : Nat) : List Cand :=
  s.grids.filterMap (fun g =>
    if g.ctx = ctx ∧ !g.preempted then
      (ctxQueue s ctx g.queue).bind (fun q =>
        if headGrid s q = some g ∧ windowRoom q ∧ queueRuns s q then
          some { prio := q.prio, key := 2 ^ 64 + q.gq, group := launchGroup s g g.next 0 0, whole := bit g.flags 0, fresh := true }
        else none)
    else none)

/-- Everything that could be given a core, continuations first. -/
def candidates (s : State) (ctx : Nat) : List Cand := continuations s ctx ++ heads s ctx

/-- A candidate fits a core: a new group needs room for its record too (R81; 04 R97). -/
def candFits (s : State) (die core : Nat) (c : Cand) : Bool :=
  fits s die core c.group && (!c.fresh || (recordRoom s c.group.ctx (recordSize c.group.desc)).isSome)

/-- The oldest head packet of the highest priority is a co-resident grid, which keeps every new group back but its own (R82). -/
def wholeWaits (cs : List Cand) (key : Nat) : Bool :=
  let hs := cs.filter (·.fresh)
  let top := hs.foldl (fun m c => max m c.prio) 0
  (hs.find? (fun c => c.prio == top)).any (fun c => c.whole && c.key != key)

/-- Nothing of higher priority fits the core (R81). A co-resident grid is given no single core. -/
def noneAbove (s : State) (die core prio : Nat) (cs : List Cand) : Bool :=
  cs.all (fun x => decide (x.prio ≤ prio) || x.whole || !candFits s die core x)

/-- The candidate with a key may take the core: it is the oldest of its priority, none of higher priority fits, and no co-resident grid
keeps it back (R81, R82). -/
def mayTake (s : State) (die core : Nat) (key : Nat) (cs : List Cand) : Bool :=
  match cs.find? (fun c => c.key == key) with
  | none => false
  | some c =>
    ((cs.find? (fun x => x.prio == c.prio)).map (·.key)) == some key && noneAbove s die core c.prio cs &&
      !(c.fresh && wholeWaits cs key)

/-- Enter one group, or a whole co-resident grid, in the reorder window of a queue. -/
def enterWindow (gq : Nat) (e : WinEntry) (s : State) : State := modQueue gq (fun q => { q with window := q.window ++ [e] }) s

/-- The grid goes on to its next group. -/
def nextGroup (gr : Grid) (n : Nat) (s : State) : State :=
  { s with grids := s.grids.map (fun g => if g.ctx = gr.ctx ∧ g.queue = gr.queue ∧ g.packet = gr.packet then { g with next := n } else g) }

/-- Reserve, build and settle group n of a grid; none without room for its record. -/
def placeGroup (gr : Grid) (n die core : Nat) (s : State) : Option State :=
  match reserveRecord (bareGroup gr n) s with
  | none => none
  | some (t, r) =>
    let g := launchGroup t gr n r.off r.epoch
    let r' := { r with saved := some { g with die := die, core := core } }
    some (settleOn die core g (writeHead r' g (writeSlot r' 0 false g (modRecord r.handle (fun _ => r') t))))

/-- GROUP_PLACE: a core is given to the head group of a queue (R81). -/
def execGroupPlace (gq die core : Nat) (s : State) : Out :=
  .next (match findQueue s gq with
    | none => s
    | some q =>
      match headGrid s q with
      | none => s
      | some gr =>
        if bit gr.flags 0 || gr.preempted || !queueRuns s q || !windowRoom q || !(ctxDies (ctxGet s q.ctx)).contains die then s
        else if mayTake s die core (2 ^ 64 + gq) (candidates s q.ctx) && fits s die core (launchGroup s gr gr.next 0 0) then
          match placeGroup gr gr.next die core s with
          | none => s
          | some t =>
            nextGroup gr (gr.next + 1)
              (enterWindow gq { packet := gr.packet, linear := gr.next, groups := 1, complete := 0, err := false } t)
        else s)

/-- Place every group of a grid on the cores given, in order; none where one does not fit. -/
def placeAll (gr : Grid) : List Nat → Nat → State → Option State
  | [], _, s => some s
  | c :: cs, n, s =>
    if fits s (c / 32) (c % 32) (launchGroup s gr n 0 0) then
      match placeGroup gr n (c / 32) (c % 32) s with
      | none => none
      | some t => placeAll gr cs (n + 1) t
    else none

/-- CORESIDENT_GRID_PLACE: a co-resident grid is placed whole (R82); it takes one window entry. -/
def execCoresidentGridPlace (gq : Nat) (cores : List Nat) (s : State) : Out :=
  .next (match findQueue s gq with
    | none => s
    | some q =>
      match headGrid s q with
      | none => s
      | some gr =>
        let c := ctxGet s q.ctx
        let cs := candidates s q.ctx
        let first := cs.find? (fun x => x.prio == q.prio)
        if !bit gr.flags 0 || gr.preempted || gr.next != 0 || !queueRuns s q || !windowRoom q || cores.length != gr.size ||
          !cores.all (fun x => (ctxDies c).contains (x / 32)) || (first.map (·.key)) != some (2 ^ 64 + gq) ||
          wholeWaits cs (2 ^ 64 + gq) || !cores.all (fun x => noneAbove s (x / 32) (x % 32) q.prio cs) then s
        else
          match placeAll gr cores 0 s with
          | none => s
          | some t => nextGroup gr gr.size
              (enterWindow gq { packet := gr.packet, linear := 0, groups := gr.size, complete := 0, err := false } t))

/-- The continuation of a phase end is offered first the core that it left: another only where it does not fit there (R99). -/
def offered (s : State) (r : Record) (g : Group) (die core : Nat) : Bool :=
  r.kind != 1 || (g.die == die && g.core == core) || !fits s g.die g.core g

/-- CONTINUATION_PLACE: a continuation, or a resumed or restarted group, is placed from its committed record on a core
that it fits (04 R99, R111). A co-resident grid's groups come back as room allows (Table 4-4). -/
def execContinuationPlace (h : BitVec 64) (die core : Nat) (s : State) : Out :=
  .next (match recordOf s h with
    | none => s
    | some r =>
      match recordGroup s r with
      | none => s
      | some g =>
        let c := ctxGet s r.ctx
        if c.state ≠ 1 ∨ c.suspending ∨ c.destroying ∨ !(ctxDies c).contains die then s
        else if mayTake s die core h.toNat (candidates s r.ctx) && fits s die core g && offered s r g die core then
          settleOn die core g (deviceReads (ctxQuota s r.ctx) [] ((List.range 2).map (fun i => storagePlace s (recordBase s r) + 128 * i) ++
            (slotLines s r r.selector (r.kind != 1) g).map (128 * ·)) s)
        else s)

/-! ## Completion (03 R84-R86) -/

/-- The entry of a queue's window that a group counts in. -/
def entryFor (packet linear : Nat) (e : WinEntry) : Bool :=
  e.packet == packet && (decide (1 < e.groups) || e.linear == linear)

/-- Count a group as complete in the first entry that it belongs to. -/
def countComplete (packet linear : Nat) (err : Bool) : List WinEntry → List WinEntry
  | [] => []
  | e :: es =>
    if entryFor packet linear e then { e with complete := e.complete + 1, err := e.err || err } :: es
    else e :: countComplete packet linear err es

/-- The completion word (R86). -/
def doneWord (gr : Grid) : Nat :=
  gr.retired + (if gr.err then 2 ^ 62 else 0) + (if gr.retired = gr.size then 2 ^ 63 else 0)

/-- A grid whose retirement has moved on: its completion word is written, and with its last group it is done. -/
def reportGrid (q : Queue) (gr : Grid) (s : State) : State :=
  let t :=
    if gr.done = 0 then s
    else match unitWrite q.server q.ctx gr.done (bytesOf 8 (doneWord gr)) s with
      | some t => t
      | none => logEvent (.doneWordLost q.gq gr.packet) s
  let same (g : Grid) : Bool := ofQueue q g && g.packet == gr.packet
  if gr.retired = gr.size then
    let t := { t with grids := t.grids.filter (fun g => !same g) }
    if bit gr.flags 1 then raiseVector q.vector t else t
  else { t with grids := t.grids.map (fun g => if same g then gr else g) }

/-- Entries retire from the oldest as their groups complete. -/
def retire (gq : Nat) : Nat → State → State
  | 0, s => s
  | n + 1, s =>
    match findQueue s gq with
    | none => s
    | some q =>
      match q.window with
      | [] => s
      | e :: rest =>
        if e.complete < e.groups then s
        else
          let t := modQueue gq (fun x => { x with window := rest }) s
          match t.grids.find? (fun g => ofQueue q g && g.packet == e.packet) with
          | none => retire gq n t
          | some gr => retire gq n (reportGrid q { gr with retired := gr.retired + e.groups, err := gr.err || e.err } t)

/-- A group leaves the machine as complete: it is no longer resident, its record is free, and its window entry counts it.
The entry retires now, or once the queue is served again. -/
def completeGroup (g : Group) (err : Bool) (s : State) : State :=
  let h := groupHandle g
  let t := dropRecord h { s with
    groups := s.groups.filter (fun x => groupHandle x != h)
    held := s.held.filter (fun x => x.group != h)
    chains := s.chains.filter (fun c => c.group != h) }
  let t := g.peers.foldl (fun u w => leaveSlots w.handle u) t
  match ctxQueue t g.ctx g.queue with
  | none => t
  | some q =>
    let t := modQueue q.gq (fun x => { x with window := countComplete g.packet g.linear err x.window }) t
    if (ctxDies (ctxGet t g.ctx)).any (fun d => t.pkg.ready.cdie.getLsbD d) then retire q.gq 257 t else t

/-- The operations of a group, with its chains. -/
def groupOps (s : State) (h : BitVec 64) : List Op := s.ops.filter (fun o => groupOf o.owner == h)

/-- The operation is performed at device scope, or at fabric scope where it names another module (R84). -/
def settled (s : State) (o : Op) : Bool :=
  decide (5 ≤ o.done) && (opPlaces o).2.all (fun a => paModule a == s.fab.module)

/-- Every operation of the group is performed, and no chain of it runs. -/
def groupQuiet (s : State) (h : BitVec 64) : Bool :=
  (groupOps s h).all (settled s) && s.chains.all (fun c => c.group != h)

/-- GROUP_COMPLETE: every wave of the group in focus has exited and its operations are performed. -/
def execGroupComplete (s : State) : Out :=
  .next (
    let g := wholeGroup s
    if focused s && g.peers.all (fun w => w.status == .exited) && groupQuiet s (groupHandle g) then
      completeGroup g g.err { s with w := {}, g := {} }
    else s)

end Sys2Proof.Machine
end

