-- ==== Sys2Proof/Machine/Phases.lean ====
section
/-!
DEFINITION. Phase ends, pre-emption, full saves, suspension, the destruction of a context and halts (04 R91-R94,
R108-R115, R121-R124; 03 R69).
-/

namespace Sys2Proof.Machine

open Sys2Proof

/-! ## The next phase (04 R93, R94) -/

/-- A wave at the start of the next phase: what Table 4-1 keeps, the carried registers and tiles that it held, the helper
mask zero (R93, R94; 05 R133); of a restartable group the tag sets start empty (09 Table 9-6). -/
def phaseWave (d : Desc) (w : Wave) : Wave :=
  let n := phaseCount d w.idx
  { w with
    status := if w.status = .exited then .exited else .ready
    clause := none
    vblocks := n.1, tiles := n.2
    vreg := w.vreg.filter (fun e => d.carryv.getLsbD e.1 && decide (e.1 < 8 * w.vblocks))
    tile := w.tile.filter (fun e => d.carryx.getLsbD e.1 && decide (e.1 < w.tiles))
    side := w.side.filter (fun e => d.carryx.getLsbD e.1 && decide (e.1 < w.tiles))
    keys := if bit d.gflags 1 then { w.keys with tags := [] } else w.keys
    hmask := 0, readsSince := [] }

/-- The group at the start of the next phase (R93, R94). -/
def phaseGroup (g : Group) : Group :=
  { g with
    peers := g.peers.map (phaseWave g.desc)
    lmem := g.lmem.filter (fun e => decide (e.1 < g.desc.carried))
    ldev := g.ldev.filter (fun e => decide (32 * e.1 < g.desc.carried))
    vpool := fullPool g.desc.poolv, xpool := fullPool g.desc.poolx
    claims := [], gbarGen := [], gbarArr := []
    tbars := g.tbars.filter (fun o => decide (o + 16 ≤ g.desc.carried))
    phase := g.phase + 1, phaseOver := false, preempt := none, saveDue := false, chains := [], holds := [] }

/-! ## PHASE_END and PHASE_SPILL (R91, R92) -/

/-- Every wave has executed GBAR.PHASE or EXIT, and some wave the former (R91). -/
def phaseEnded (g : Group) : Bool :=
  g.peers.all (fun w => w.status == .exited || w.status == .waiting .phaseEnd) &&
    g.peers.any (fun w => w.status == .waiting .phaseEnd)

/-- PHASE_END: the phase of the group in focus ends; a save that is due is not needed (Table 4-5). -/
def execPhaseEnd (s : State) : Out :=
  .next (if focused s && phaseEnded (wholeGroup s) then { s with g := { s.g with phaseOver := true, saveDue := false } } else s)

/-- The operation does not keep the group on its core: a weak store handed on, a delivery to another wave, or an arrival of BARRIVE that
is still to be counted, which goes with the group's local memory (R92, R110). -/
def handedOn (o : Op) : Bool :=
  match o.kind with
  | .store false _ => !o.strong && o.fault.isNone && decide (0 < o.done)
  | .copy j => !j.srcLocal && !j.dstLocal
  | .ksend .. => true
  | .arrive _ _ none => true
  | _ => false

/-- Every member of a wave's keys is complete: none is in flight (09 Table 9-6). -/
def membersSettled (s : State) (w : Wave) : Bool :=
  ((List.range 16).flatMap (fun k => membersOf s w k) ++ ownMembers s w).all (fun id => (findOp s id).isNone)

/-- The drain of R92. -/
def drained (s : State) (g : Group) : Bool :=
  (groupOps s (groupHandle g)).all handedOn && s.chains.all (fun c => c.group != groupHandle g) &&
    (!bit g.desc.gflags 1 || g.peers.all (membersSettled s))

/-- The group in focus leaves its core: its waves leave their slots. -/
def leaveCore (s : State) : State :=
  (wholeGroup s).peers.foldl (fun t w => leaveSlots w.handle t) { s with w := {}, g := {} }

/-- Arrivals held for barriers that a phase end releases (10 Table 10-4). -/
def dropHeld (g : Group) (s : State) : State :=
  { s with held := s.held.filter (fun x => x.group != groupHandle g || decide (x.off + 16 ≤ g.desc.carried)) }

/-- A co-resident group starts its next phase where it is. -/
def stayOn (g : Group) (s : State) : State :=
  match pick (fun w => w.idx == s.w.idx) g.peers with
  | none => s
  | some (w, ps) => { s with w := w, g := { g with peers := ps } }

/-- PHASE_SPILL: after the drain the carried state is written and the selector flips; the group leaves the core, its
continuation held back while a pre-emption asks so. A co-resident group stays, its record written only when its phases are
restartable (R98, R99, R109). -/
def execPhaseSpill (s : State) : Out :=
  .next (
    let g := wholeGroup s
    if focused s && g.phaseOver && drained s g then
      let n := phaseGroup g
      if g.coresident && g.preempt.isNone then
        stayOn n (if bit g.desc.gflags 1 then commitRecord 1 n.phase false n (dropHeld g s) else dropHeld g s)
      else leaveCore (commitRecord 1 n.phase g.preempt.isSome n (dropHeld g s))
    else s)

/-! ## Pre-emption (R108, R109) -/

/-- Grace time of a context in µs. -/
def graceTime (c : Ctx) : Nat := if c.grace = 0 then 20 else c.grace

/-- Ask groups with a property to leave their cores; one asked already keeps its time (log 29). -/
def preemptGroups (p : Group → Bool) (s : State) : State :=
  let ask (g : Group) : Group :=
    if p g ∧ g.preempt.isNone then { g with preempt := some (graceTime (ctxGet s g.ctx)), asked := s.nextOp } else g
  { s with g := if focused s then ask s.g else s.g, groups := s.groups.map ask, nextOp := s.nextOp + 1 }

/-- Hold back, or let go, the continuations of groups with a property. -/
def holdRecords (b : Bool) (p : Group → Bool) (s : State) : State :=
  { s with records := s.records.map (fun r =>
      if !resident s r.handle && (r.saved.map p).getD false then { r with heldBack := b } else r) }

/-- The group is of a grid. -/
def ofGrid (ctx queue packet : Nat) (g : Group) : Bool := g.ctx == ctx && g.queue == queue && g.packet == packet

/-- Result of a suspension command that ends at once. -/
def suspResult (n : Nat) (s : State) : State := { s with host := { s.host with suspBusy := false, suspResult := n } }

/-- Stop or restart a context's queues. -/
def stopQueues (b : Bool) (ctx : Nat) (s : State) : State :=
  { s with queues := s.queues.map (fun q => if q.ctx = ctx then { q with stopped := b } else q) }

/-- The context is active and not about to be destroyed. -/
def ctxActive (s : State) (ctx : Nat) : Bool := (ctxGet s ctx).state == 1 && !(ctxGet s ctx).destroying

/-- SUSPEND_CONTEXT: the queues stop and every resident group is pre-empted (R114). -/
def execSuspendContext (ctx : Nat) (s : State) : Out :=
  .next (hostWrite (fun s =>
    if s.host.suspBusy then s
    else if !ctxActive s ctx then suspResult 1 s
    else
      let t := ctxPut s ctx { ctxGet s ctx with suspending := true }
      let t := holdRecords true (fun g => g.ctx == ctx) (preemptGroups (fun g => g.ctx == ctx) (stopQueues true ctx t))
      { t with host := { t.host with suspBusy := true } }) s)

/-- Operations of a context. -/
def ctxOps (s : State) (ctx : Nat) : List Op := s.ops.filter (fun o => handleCtx o.owner == ctx)

/-- No group of the context is resident, every member of its keys and every engine copy is complete, and what else it has issued is
performed, but for arrivals, which go with their groups (R114; 09 Table 9-6). -/
def ctxDrained (s : State) (ctx : Nat) : Bool :=
  (allGroups s).all (fun g => g.ctx != ctx) && (ctxOps s ctx).all (fun o => match o.kind with
    | .arrive .. => true
    | _ => o.tag.isNone && settled s o)

/-- SUSPEND_DRAINED: CTX_STAT shows state 2 and busy clears. -/
def execSuspendDrained (ctx : Nat) (s : State) : Out :=
  .next (
    let c := ctxGet s ctx
    if c.suspending && !c.destroying && ctxDrained s ctx then suspResult 0 (ctxPut s ctx { c with state := 2, suspending := false }) else s)

/-- Every virtual die of the span is bound to a physical die (01 R12). -/
def spanBound (s : State) (c : Ctx) : Bool :=
  (ctxDies c).all (fun d => match s.pkg.cfg.cdie[d]? with
    | some p => decide (p < 32) && !s.pkg.fencedC.getLsbD p && !s.pkg.cfg.cfence.getLsbD p
    | none => false)

/-- The grid of a group is pre-empted by op 3. -/
def gridHeld (s : State) (g : Group) : Bool := s.grids.any (fun x => ofGrid x.ctx x.queue x.packet g && x.preempted)

/-- Retire what completed while no dispatch unit served the context's queues (01 R28). -/
def retireAll (ctx : Nat) (s : State) : State :=
  (s.queues.filter (fun q => q.ctx == ctx)).foldl (fun t q => retire q.gq 257 t) s

/-- RESUME_CONTEXT: the saved groups may be placed again and the queues run, their lines monitored (R114; 03 R72). -/
def execResumeContext (ctx : Nat) (s : State) : Out :=
  .next (hostWrite (fun s =>
    let c := ctxGet s ctx
    if s.host.suspBusy then s
    else if c.state ≠ 2 ∨ c.destroying then suspResult 1 s
    else if !spanBound s c then suspResult 3 s
    else
      let t := stopQueues false ctx (ctxPut s ctx { c with state := 1 })
      watchContext ctx (retireAll ctx (suspResult 0 (holdRecords false (fun g => g.ctx == ctx && !gridHeld s g) t)))) s)

/-- A restart under way keeps the group off its core: its die's own, or that of a die of its co-resident grid (01 R27, Table 1-7). -/
def restartHeld (s : State) (g : Group) : Bool :=
  s.pkg.restartC.getLsbD g.die || (g.coresident && s.pkg.restartOf.any (fun x => x.2 == (g.ctx, g.queue, g.packet)))

/-- Groups with a property are asked no longer to leave, where no restart asks it too. -/
def unaskGroups (p : Group → Bool) (s : State) : State :=
  let free (g : Group) : Group := if p g && !restartHeld s g then { g with preempt := none, saveDue := false } else g
  { s with g := if focused s then free s.g else s.g, groups := s.groups.map free }

/-- The grid still has a group that is not placed, resident, or saved. -/
def gridThere (s : State) (gr : Grid) : Bool :=
  let it := ofGrid gr.ctx gr.queue gr.packet
  decide (gr.next < gr.size) || (allGroups s).any it || s.records.any (fun r => (r.saved.map it).getD false)

/-- A grid packet is queued in its ring: covered by the write index and not taken, its type byte 1. -/
def queuedGrid (s : State) (q : Queue) (packet : Nat) : Bool :=
  decide (q.next ≤ packet) &&
    (match unitRead s q.server q.ctx q.windex 8 with
      | some bs => decide (packet < numOf bs)
      | none => false) &&
    (match unitRead s q.server q.ctx (q.ring + 64 * (packet % 2 ^ q.slots)) 1 with
      | some [b] => b == 1
      | _ => false)

/-- PREEMPT_GRID: a grid is pre-empted, or resumed where it is pre-empted already; one still queued is marked, and placed only once it
is resumed (R108, R113); of one whose groups are all complete nothing is resident or queued. -/
def execPreemptGrid (ctx queue packet : Nat) (s : State) : Out :=
  .next (hostWrite (fun s =>
    if s.host.suspBusy then s
    else if !ctxActive s ctx then suspResult 1 s
    else
      let it := ofGrid ctx queue packet
      match s.grids.find? (fun g => g.ctx == ctx && g.queue == queue && g.packet == packet) with
      | some gr =>
        let mark (b : Bool) (t : State) : State := { t with grids := t.grids.map (fun g =>
          if g.ctx = ctx ∧ g.queue = queue ∧ g.packet = packet then { g with preempted := b } else g) }
        if !gridThere s gr then suspResult 2 s
        else if gr.preempted then
          suspResult 0 (holdRecords false (fun g => it g && !restartHeld s g) (unaskGroups it (mark false s)))
        else suspResult 0 (holdRecords true it (preemptGroups it (mark true s)))
      | none =>
        match ctxQueue s ctx queue with
        | none => suspResult 2 s
        | some q =>
          if queuedGrid s q packet then
            suspResult 0 (modQueue q.gq (fun x => { x with
              preempts := if x.preempts.contains packet then x.preempts.erase packet else packet :: x.preempts }) s)
          else suspResult 2 s) s)

/-! ## Destroying a context (03 R69) -/

/-- What is left of a context once its waves are stopped and reaches nothing outside it: an ENQ, an arrival, or a delivery held for a wave
of a context that is being destroyed. -/
def noAccess (s : State) (o : Op) : Bool :=
  match o.kind with
  | .enq .. => true
  | .ksend name _ _ _ remote => !remote && (ctxGet s (bits name.toNat 57 53)).destroying
  | .arrive .. => true
  | _ => false

/-- Discard everything of a context. -/
def discardContext (ctx : Nat) (s : State) : State :=
  let gone := (allGroups s).filter (fun g => g.ctx == ctx)
  let t := gone.foldl (fun u g => g.peers.foldl (fun v w => leaveSlots w.handle v) u) s
  let here := focused t && t.g.ctx == ctx
  { t with
    w := if here then {} else t.w
    g := if here then {} else t.g
    ops := t.ops.filter (fun o => handleCtx o.owner != ctx)
    groups := t.groups.filter (fun g => g.ctx != ctx)
    records := t.records.filter (fun r => r.ctx != ctx)
    held := t.held.filter (fun h => handleCtx h.group != ctx)
    queues := t.queues.filter (fun q => q.ctx != ctx)
    xlt := { t.xlt with walks := t.xlt.walks.filter (fun x => x.ctx != ctx) }
    pkg := { t.pkg with restartOf := t.pkg.restartOf.filter (fun x => x.2.1 != ctx) } }

/-- The context is free: what its registers keep is its record area and its halt log (04 Table 4-2). -/
def freeContext (ctx : Nat) (s : State) : State :=
  let c := ctxGet s ctx
  ctxPut s ctx { phrArea := c.phrArea, halt := c.halt }

/-- A suspension under way ends with its context, with result 1, the model's choice (log 42). -/
def endSuspension (ctx : Nat) (s : State) : State := if (ctxGet s ctx).suspending then suspResult 1 s else s

/-- A context begins to be destroyed: no packet is taken any more, queued packets and groups not placed are discarded, and every wave
stops at an instruction boundary; what it has issued goes on, a LAUNCH into its queues too (R69). -/
def beginDestroy (byHost : Bool) (ctx : Nat) (s : State) : State :=
  let t := endSuspension ctx s
  let stop (g : Group) : Group := if g.ctx = ctx then { g with peers := g.peers.map stopWave } else g
  let here := focused t && t.g.ctx == ctx
  let u := { t with
    w := if here then stopWave t.w else t.w
    g := if here then stop t.g else t.g
    groups := t.groups.map stop
    grids := t.grids.filter (fun g => g.ctx != ctx)
    queues := t.queues.map (fun q => if q.ctx = ctx then { q with window := [], waitFor := none, preempts := [] } else q)
    chains := t.chains.filter (fun c => c.ctx != ctx) }
  ctxPut u ctx { ctxGet u ctx with destroying := true, byHost := byHost || (ctxGet u ctx).byHost, suspending := false }

/-- CTX_DESTROY: CTX_CMD op 2; result 6 for a context that is free. -/
def execCtxDestroy (ctx : Nat) (s : State) : Out :=
  .next (hostWrite (fun s =>
    if s.host.ctxBusy then s
    else if (ctxGet s ctx).state = 0 then { s with host := { s.host with ctxResult := 6 } }
    else
      let t := beginDestroy true ctx s
      { t with host := { t.host with ctxBusy := true } }) s)

/-- Every operation that the context issued is performed at device scope; one that has met a precise fault, or waits for one that has,
performs nothing. -/
def ctxPerformed (s : State) (ctx : Nat) : Bool :=
  let stuck := stuckOps (ctxOps s ctx)
  (ctxOps s ctx).all (fun o => noAccess s o || stuck.any (fun q => q.id == o.id) || settled s o)

/-- CTX_DESTROY_COMPLETE: every operation the context issued is performed at device scope; its dies are free. A command of the host ends
with it. -/
def execCtxDestroyComplete (ctx : Nat) (s : State) : Out :=
  .next (
    let c := ctxGet s ctx
    if c.destroying && ctxPerformed s ctx then
      let t := freeContext ctx (discardContext ctx s)
      if c.byHost then { t with host := { t.host with ctxBusy := false, ctxResult := 0 } } else t
    else s)

/-! ## Grace time and full saves (R109, R123, R124) -/

/-- The lowest wave of a group in trap mode. -/
def trapWave (g : Group) : Option Wave := g.peers.find? (fun w => w.trap.on)

/-- The group and wave that a context reset names: of the groups asked together with the one given whose grace time is not forestalled by a
phase end and that have a wave in trap mode, the one of lowest linear index (R124). -/
def resetNamed (s : State) (g : Group) : Option Wave :=
  ((allGroups s).foldl (fun m x =>
    if x.ctx = g.ctx ∧ x.asked = g.asked ∧ x.preempt.isSome ∧ !x.phaseOver ∧ !phaseEnded x ∧ (trapWave x).isSome ∧
      m.all (fun y : Group => decide (x.linear < y.linear)) then some x else m) (none : Option Group)).bind trapWave

/-- A context reset: HALT_LOG names the wave in trap mode with cause 0xFF (R124). -/
def resetContext (w : Wave) (ctx : Nat) (s : State) : State :=
  let c := ctxGet s ctx
  beginDestroy false ctx (ctxPut s ctx { c with halt := haltLog c.halt 0xFF w.pc w.handle })

/-- GRACE_EXPIRY: the grace time of the group in focus ends: a full save is due, or with a wave in trap mode the context is
reset, once. -/
def execGraceExpiry (s : State) : Out :=
  .next (
    let g := wholeGroup s
    if !focused s || g.preempt.isNone || g.phaseOver || phaseEnded g || (ctxGet s g.ctx).destroying then s
    else
      match trapWave g with
      | some w => resetContext ((resetNamed s g).getD w) g.ctx s
      | none => { s with g := { s.g with saveDue := true } })

/-- Every issued instruction of the group is complete, but for weak stores handed on (R109, R110), and the recalls of its lanes may write
their stack areas (06 R164). -/
def issuedDone (s : State) (g : Group) : Bool :=
  (groupOps s (groupHandle g)).all (fun o => handedOn o && match o.kind with
    | .copy _ => false
    | _ => true) &&
    g.peers.all (fun w => w.ejected.isEmpty || areaReady (focusOn w.handle s))

/-- Recall every ejected lane of a wave in focus; a stack overflow is left for its next instruction (06 Table 6-5). -/
def recallAll (s : State) : State :=
  match recallWhere (fun _ => true) s with
  | .ok t => t
  | .error t => recallFault s.w.ejected t s

/-- A wave as a full save keeps it: the clause is fetched again after resume. -/
def savedWave (w : Wave) : Wave := { w with clause := none, readsSince := [] }

/-- FULL_SAVE: once issued work is complete the lanes are recalled, the state is written and the selector flips with kind 2;
the group leaves its core and is held back until the cause is lifted. -/
def execFullSave (s : State) : Out :=
  .next (
    if focused s && s.g.saveDue && issuedDone s (wholeGroup s) then
      let t := (wholeGroup s).peers.foldl (fun u w => withWave w.handle recallAll u) s
      let g := wholeGroup t
      if g.peers.any (fun w => w.stackDue.isSome) then { t with g := { t.g with saveDue := false } }
      else
        let h := groupHandle g
        let saved : Group := { g with
          peers := g.peers.map savedWave, preempt := none, saveDue := false
          chains := t.chains.filter (fun c => c.group == h), holds := t.held.filter (fun x => x.group == h) }
        leaveCore (commitRecord 2 g.phase true saved t)
    else s)

/-! ## Halts (R121) -/

/-- HALT_COMPLETE: once the halted group's operations are performed its record is written with kind 3, the group completes
with error, and its queue's vector is raised. -/
def execHaltComplete (s : State) : Out :=
  .next (
    let g := wholeGroup s
    if focused s && g.peers.any (fun w => w.status == .halted) && (groupOps s (groupHandle g)).all (settled s) then
      let t := completeGroup g true { (commitRecord 3 g.phase true g s) with w := {}, g := {} }
      match ctxQueue s g.ctx g.queue with
      | none => t
      | some q => raiseVector q.vector t
    else s)

end Sys2Proof.Machine
end

