-- ==== Sys2Proof/Machine/MemService.lean ====
section
/-!
DEFINITION. Memory service: interleave and homes, moves of home blocks, memory dies going offline and coming back, healing;
and translation invalidation (03 R66, R67; 08 R214-R220; 07 R197, R198).
-/

namespace Sys2Proof.Machine

open Sys2Proof

/-! ## Homes (R66) -/

/-- A pattern that INTLV takes (R67). -/
def intlvValid (v : Word) : Bool :=
  let codes (lo : Nat) : List Nat := (List.range 8).map (fun i => intlvCode v (lo + i))
  (codes 0 ++ codes 8).all (· == 2) ||
    [codes 0, codes 8].all (fun cs => cs.all (· == 0) || cs.all (· == 1))

/-- Compute dies of contexts that are not free. -/
def usedDies (s : State) : List Nat :=
  s.ctxs.flatMap (fun e => if e.2.state = 0 then [] else ctxDies e.2)

/-- A context holds a compute die of half h. -/
def halfUsed (s : State) (h : Nat) : Bool := (usedDies s).any (fun d => d / 16 == h)

/-- Rename the addresses of memory: bytes, check values and what DRAM still holds, by offsets of this module's region 0. -/
def renameMem (f : Nat → Nat) (s : State) : State :=
  let own (a : Nat) : Bool := paModule a == s.fab.module && paRegion a == 0
  let dest (unit x : Nat) : Nat :=
    if own (unit * x) then ownPa s (f (paOffset (unit * x)) / unit * unit) / unit else x
  let byte (a : Nat) : Nat := if own a then ownPa s (f (paOffset a)) else a
  { s with mem :=
    { cells := Tab.putAll 0 [] (s.mem.cells.map (fun c => (byte c.1, c.2)))
      dev := Tab.putAll 0 [] (s.mem.dev.map (fun c => (dest 32 c.1, c.2)))
      stale := Tab.putAll [] [] (s.mem.stale.map (fun c => (dest 128 c.1, c.2))) } }

/-- A change of INTLV moves no data: the same offsets reach other bytes (R67). -/
def rehome (v : Word) (s : State) : State :=
  let old := s.svc.intlv
  let f (o : Nat) : Nat := let h := home old o; offsetOf v h.1 h.2
  { (renameMem f s) with svc := { s.svc with intlv := v } }

/-- INTLV_WRITE: a valid pattern that changes no code of a half in use. -/
def execIntlvWrite (v : Word) (s : State) : Out :=
  .next (hostWrite (fun s =>
    let changes (h : Nat) : Bool := bits v.toNat (16 * h + 15) (16 * h) != bits s.svc.intlv.toNat (16 * h + 15) (16 * h)
    if intlvValid v && !(changes 0 && halfUsed s 0) && !(changes 1 && halfUsed s 1) then rehome v s else s) s)

/-! ## Home blocks (R214, R215) -/

/-- Set a redirect entry. -/
def setRedirect (i : Nat) (x : Option (Nat × Nat)) (s : State) : State :=
  { s with svc := { s.svc with redirect := Tab.put none s.svc.redirect i x } }

/-- The block is a lend block of its die. -/
def isLend (s : State) (die block : Nat) : Bool := decide (4096 ≤ block + Tab.get 0 s.svc.lend die)

/-- A block of storage holds a moved block, is to receive one, or is the source of a move not yet complete (R215). -/
def holdsMoved (s : State) (die block : Nat) : Bool :=
  s.svc.redirect.any (fun e => e.2 == some (die, block)) ||
    s.svc.moves.any (fun m => (m.tdie == die && m.tblock == block) || (m.die == die && m.block == block))

/-- A lend block that holds nothing. -/
def freeLend (s : State) (die block : Nat) : Bool := isLend s die block && !holdsMoved s die block

/-- End a memory command with a result, its moves counted (log 30). -/
def memEnd (n : Nat) (s : State) : State :=
  { s with svc := { s.svc with busy := false, result := n, goingOffline := none, comingOnline := none } }

/-- A memory command that ends at once has moved no block (Table 8-7). -/
def memResult (n : Nat) (s : State) : State := memEnd n { s with svc := { s.svc with moved := 0 } }

/-- MEM_STAT.moving: the dies from which a dual-home window is open (R215, Table 8-7). -/
def movingDies (s : State) : Nat :=
  (List.range 16).foldl (fun m d => if s.svc.moves.any (fun x => x.die == d && !x.switched) then m + 2 ^ d else m) 0

/-- A block moves on from a lend block, whose storage keeps the bytes that it held: they are copied to the lend block's own
addresses, which reach it again (R214, R215). The bytes of the moved block keep their addresses. -/
def leaveBlock (src die block : Nat) (s : State) : State :=
  let dst := die * 4096 + block
  let inBlock (unit b x : Nat) : Bool := ownMemory s (unit * x) && blockAt s (paOffset (unit * x)) == b
  let move (unit x : Nat) : Nat :=
    ownPa s (offsetOf s.svc.intlv die (block * 2 ^ 24 + (home s.svc.intlv (paOffset (unit * x))).2 % 2 ^ 24)) / unit
  if src = dst then s
  else
    { s with mem :=
      { cells := Tab.putAll 0 (s.mem.cells.filter (fun c => !inBlock 1 dst c.1))
          ((s.mem.cells.filter (fun c => inBlock 1 src c.1)).map (fun c => (move 1 c.1, c.2)))
        dev := Tab.putAll 0 (s.mem.dev.filter (fun c => !inBlock 32 dst c.1))
          ((s.mem.dev.filter (fun c => inBlock 32 src c.1)).map (fun c => (move 32 c.1, c.2)))
        stale := s.mem.stale.filter (fun c => !inBlock 128 dst c.1) } }

/-- Agents that a switch message goes to: compute dies 0-31 and I/O dies 32, 33. -/
def switchAgents : List Nat := List.range 34

/-- Open moves. -/
def openMoves (ms : List Move) (s : State) : State :=
  { s with svc := { s.svc with moves := s.svc.moves ++ ms, busy := true, moved := 0 } }

/-- MEM_MOVE_BLOCK: MEM_CMD op 1. Table 8-7's result 4, die offline, does not say which die: the model tests the source die alone, its
choice (log 45). -/
def execMemMoveBlock (die block tdie tblock : Nat) (s : State) : Out :=
  .next (hostWrite (fun s =>
    if s.svc.busy then s
    else if 16 ≤ die ∨ 16 ≤ tdie ∨ 4096 ≤ block ∨ 4096 ≤ tblock then memResult 1 s
    else if !freeLend s tdie tblock then memResult 2 s
    else if s.svc.offline.getLsbD die then memResult 4 s
    else if (redirectOf s die block).isSome then memResult 5 s
    else openMoves [{ die := die, block := block, tdie := tdie, tblock := tblock, switched := false, acks := [], back := false }] s) s)

/-- The move of a block that its die makes next. -/
def nextMove (s : State) (die block : Nat) : Option Move :=
  match s.svc.moves.find? (fun m => m.die == die) with
  | none => none
  | some m => if m.block = block ∧ !m.switched then some m else none

/-- The redirect that a move leaves: the home of its block is the target. -/
def landMove (m : Move) (s : State) : State :=
  if m.back then setRedirect (m.tdie * 4096 + m.tblock) none s
  else setRedirect (tenant s m.die m.block) (some (m.tdie, m.tblock)) s

/-- HOME_SWITCH: the last line is copied, the switch message is sent, the window ends, and the target is the home (R215). -/
def execHomeSwitch (die block : Nat) (s : State) : Out :=
  .next (match nextMove s die block with
    | none => s
    | some m =>
      let t := landMove m (leaveBlock (tenant s die block) die block s)
      { t with svc := { t.svc with moves := t.svc.moves.map (fun x =>
          if x = m then { x with switched := true, acks := switchAgents } else x) } })

/-- With no move left the command is done: a die is offline, or back (R216, R217). -/
def finishMoves (s : State) : State :=
  if !s.svc.moves.isEmpty then s
  else
    match s.svc.goingOffline, s.svc.comingOnline with
    | some m, _ => memEnd 0 (refreshM [m]
        { s with svc := { s.svc with offline := setBit s.svc.offline m true, degraded := setBit s.svc.degraded m false } })
    | none, some m => memEnd 0 (refreshM [m]
        { s with svc := { s.svc with offline := setBit s.svc.offline m false, degraded := setBit s.svc.degraded m false } })
    | none, none => memEnd 0 s

/-- HOME_SWITCH_ACK: a die has updated its redirect entry; with the last acknowledgement the move is complete. -/
def execHomeSwitchAck (die block agent : Nat) (s : State) : Out :=
  .next (match s.svc.moves.find? (fun m => m.die == die && m.block == block && m.switched) with
    | none => s
    | some m =>
      let left := m.acks.erase agent
      if left.isEmpty then
        finishMoves { s with svc := { s.svc with moves := s.svc.moves.erase m, moved := s.svc.moved + 1 } }
      else { s with svc := { s.svc with moves := s.svc.moves.map (fun x => if x = m then { x with acks := left } else x) } })

/-- Blocks of a die that must be moved away: non-lend blocks not redirected, then lend blocks that hold moved blocks or are
to receive one (R216, Table 8-8). -/
def evacuate (s : State) (m : Nat) : List Nat :=
  (List.range 4096).filter (fun b => !isLend s m b && (redirectOf s m b).isNone) ++
    (List.range 4096).filter (fun b => isLend s m b &&
      (s.svc.redirect.any (fun e => e.2 == some (m, b)) || s.svc.moves.any (fun x => x.tdie == m && x.tblock == b)))

/-- Free lend blocks on the other dies in service, in ascending die and block order (R216). -/
def evacSpace (s : State) (m : Nat) : List (Nat × Nat) :=
  (List.range 16).flatMap (fun d =>
    if d = m ∨ s.svc.offline.getLsbD d ∨ s.svc.degraded.getLsbD d then []
    else ((List.range 4096).filter (freeLend s d)).map (fun b => (d, b)))

/-- A move from the die is in progress by op 1 (Table 8-8). -/
def moveFrom (s : State) (m : Nat) : Bool :=
  s.svc.goingOffline.isNone && s.svc.comingOnline.isNone && s.svc.moves.any (fun x => x.die == m)

/-- MEM_OFFLINE_DIE: MEM_CMD op 2. -/
def execMemOfflineDie (m : Nat) (s : State) : Out :=
  .next (hostWrite (fun s =>
    if s.svc.busy && !moveFrom s m then s
    else if 16 ≤ m then memResult 1 s
    else if s.svc.offline.getLsbD m then memResult 4 s
    else
      let need := (evacuate s m).filter (fun b => !s.svc.moves.any (fun x => x.die == m && x.block == b))
      let space := evacSpace s m
      if space.length < need.length then
        let t := if s.svc.moves.isEmpty then memResult 3 s else { s with svc := { s.svc with result := 3 } }
        { t with svc := { t.svc with degraded := setBit t.svc.degraded m true } }
      else
        let ms := (need.zip space).map (fun p =>
          ({ die := m, block := p.1, tdie := p.2.1, tblock := p.2.2, switched := false, acks := [], back := false } : Move))
        let t := openMoves ms s
        finishMoves { t with svc := { t.svc with goingOffline := some m } }) s)

/-- MEM_ONLINE_DIE: MEM_CMD op 3. -/
def execMemOnlineDie (m : Nat) (s : State) : Out :=
  .next (hostWrite (fun s =>
    if s.svc.busy then s
    else if 16 ≤ m then memResult 1 s
    else if !s.svc.offline.getLsbD m then memResult 4 s
    else
      let ms := (s.svc.redirect.filter (fun e => e.1 / 4096 == m)).filterMap (fun e => e.2.map (fun p =>
        ({ die := p.1, block := p.2, tdie := m, tblock := e.1 % 4096, switched := false, acks := [], back := true } : Move)))
      let t := openMoves ms s
      finishMoves { t with svc := { t.svc with comingOnline := some m } }) s)

/-- MEM_HEAL_LINE: MEM_CMD op 4 on MEM_ADDR: cached copies go, then 128 zero bytes are written (R220). -/
def execMemHealLine (s : State) : Out :=
  .next (hostWrite (fun s =>
    if s.svc.busy then s
    else
      let a := storagePlace s (ownPa s (bits s.svc.addr.toNat 39 7 * 128))
      memResult 0 (deviceWrite fullQuota [] ((List.range 128).map (a + ·)) (List.replicate 128 0) s)) s)

/-- MEM_CMD_RESERVED: ops 5-7 end with result 1. -/
def execMemCmdReserved (s : State) : Out := .next (hostWrite (fun s => if s.svc.busy then s else memResult 1 s) s)

/-! ## Translation invalidation (07 R197, R198) -/

/-- Keys of the core and Bivouac TLBs of a die. -/
def tlbFilter (dies : List Nat) (per : Nat) (keep : TlbEntry → Bool) (t : Tab (List TlbEntry)) : Tab (List TlbEntry) :=
  (t.map (fun e => if dies.contains (e.1 / per) then (e.1, e.2.filter keep) else e)).filter (fun e => !e.2.isEmpty)

/-- Remove entries of a context's span from every TLB, and all of its walker cache. -/
def dropEntries (ctx : Nat) (keep : TlbEntry → Bool) (s : State) : State :=
  let ds := ctxDies (ctxGet s ctx)
  let k (e : TlbEntry) : Bool := e.ctx != ctx || keep e
  { s with xlt := { s.xlt with
      core := tlbFilter ds 32 k s.xlt.core
      biv := tlbFilter ds 16 k s.xlt.biv
      die := tlbFilter ds 1 k s.xlt.die
      walker := (s.xlt.walker.map (fun e => (e.1, e.2.filter (fun w => w.ctx != ctx)))).filter (fun e => !e.2.isEmpty) } }

/-- Set the result of XLT_RES. -/
def xltResult (n : Nat) (s : State) : State :=
  { s with xlt := { s.xlt with busy := false, result := n, waitOps := [], range := none } }

/-- The operation's accesses were translated when it issued: LAUNCH and COPY translate theirs when they are performed. -/
def translated (o : Op) : Bool :=
  match o.kind with
  | .load loc .. => !loc
  | .store loc _ => !loc
  | .atomic .. => true
  | .stream _ => true
  | .steep _ => true
  | .stateOut .. => true
  | _ => false

/-- The accesses of an operation, as virtual addresses and lengths. -/
def opSpans (o : Op) : List (Nat × Nat) :=
  o.accs.map (fun a => (a.va, a.bytes.length)) ++ match o.kind with
    | .stream j => j.todo.map (fun x => (x.va, x.places.length))
    | .steep j => (steepReads j ++ steepWrites j).map (fun x => (x.va, x.places.length))
    | _ => []

/-- An invalidation of n bytes from lo on: for a context that is free result 1; for a suspended one it ends at once; else it waits
for every access of the context translated before. -/
def invalidate (ctx lo n : Nat) (keep : TlbEntry → Bool) (s : State) : State :=
  if s.xlt.busy then s
  else if (ctxGet s ctx).state = 0 then xltResult 1 s
  else
    let t := dropEntries ctx keep s
    if (ctxGet s ctx).state = 2 then xltResult 0 t
    else { t with xlt := { t.xlt with
      busy := true, waitOps := ((ctxOps s ctx).filter translated).map (·.id), range := some (ctx, lo, n) } }

/-- An access issued while the command is busy, in the range that it is busy for, is still to be performed (Table 7-7; log 43). -/
def rangePending (s : State) : Bool :=
  match s.xlt.range with
  | none => false
  | some (ctx, lo, n) => (ctxOps s ctx).any (fun o => translated o && !settled s o &&
      (opSpans o).any (fun a => decide (a.1 < lo + n) && decide (lo < a.1 + a.2)))

/-- The entry overlaps a range. -/
def overlaps (lo n : Nat) (e : TlbEntry) : Bool := decide (e.va < lo + n) && decide (lo < e.va + 4096 * 2 ^ e.size)

/-- XLT_INVALIDATE_RANGE: XLT_CMD op 1 on XLT_VA. -/
def execXltInvalidateRange (ctx size : Nat) (s : State) : Out :=
  .next (hostWrite (fun s =>
    let n := 4096 * 2 ^ (size % 16)
    let lo := alignDown (bits s.xlt.va.toNat 55 12 * 4096) n
    invalidate ctx lo n (fun e => !overlaps lo n e) s) s)

/-- XLT_INVALIDATE_ALL: XLT_CMD op 2. -/
def execXltInvalidateAll (ctx : Nat) (s : State) : Out := .next (hostWrite (fun s => invalidate ctx 0 (2 ^ 56) (fun _ => false) s) s)

/-- XLT_INVALIDATE_COMPLETE: the accesses translated before the removal are performed, and those issued in the range since. -/
def execXltInvalidateComplete (s : State) : Out :=
  .next (
    if s.xlt.busy && s.xlt.waitOps.all (fun id => match findOp s id with
      | none => true
      | some o => settled s o) && !rangePending s then xltResult 0 s
    else s)

/-- XLT_CMD_NONE: op 0 does nothing and leaves busy clear. -/
def execXltCmdNone (s : State) : Out := .next (hostWrite (fun s => s) s)

/-- XLT_CMD_RESERVED: op 3 ends at once with result 2. -/
def execXltCmdReserved (s : State) : Out := .next (hostWrite (fun s => if s.xlt.busy then s else xltResult 2 s) s)

/-- What waits on a walk of a die that its page does not cover starts walks of its own (R195). -/
def walkLeft (w : Walk) (p : Nat → Bool) (s : State) : State :=
  (w.waiting.filter (fun va => !p va)).foldl (fun t va => walkBegins w.die w.ctx va t) s

/-- A walk in progress ends. Its node reads have been made; it installs its page, which completes every miss inside the page, whichever
walk it waits on; a fault is delivered to all that wait on it and is not cached (R195, R196). -/
def endWalk (w : Walk) (s : State) : State :=
  let t := walkReads w.die w.ctx w.va { s with xlt := { s.xlt with walks := s.xlt.walks.erase w } }
  match walk s w.die w.ctx w.va with
  | .error _ => t
  | .ok p =>
    let u := installDie w.die p.1 (installWalk w.die w.ctx w.va p.2 t)
    walkLeft w (p.1.covers w.ctx) { u with xlt := { u.xlt with walks := u.xlt.walks.map (fun x =>
      if x.die = w.die ∧ x.ctx = w.ctx then { x with waiting := x.waiting.filter (fun va => !p.1.covers w.ctx va) } else x) } }

/-- A walk that runs for an address: of its context and region (R195). -/
def walkFor (s : State) (die ctx va : Nat) : Option Walk :=
  (runningWalks s die).find? (fun w => w.ctx == ctx && walkRegion w.va == walkRegion va)

/-- PAGE_WALK_COMPLETE: a walk of a die for a core's miss ends and installs its page (R195); a fault is not cached. -/
def execPageWalkComplete (die core ctx va : Nat) (s : State) : Out :=
  .next (
    if 2 ^ 56 ≤ va || decide (32 ≤ core) then s
    else
      let t := match walkFor s die ctx va with
        | some w => endWalk w s
        | none => s
      if walkWaits t die ctx va then t else installFor false (die * 32 + core) die ctx va t)

end Sys2Proof.Machine
end

