-- ==== Sys2Proof/Machine/Package.lean ====
section
/-!
DEFINITION. The package: power and bring-up, images and configuration records, recovery, attestation, remapping, heat and
coolant, restart and loss of compute dies (01 R11-R29, R36-R43; 08 R219).
-/

namespace Sys2Proof.Machine

open Sys2Proof

/-! ## Configuration records (R16-R19) -/

/-- The fields of a record (Table 1-2). -/
def Rec.type (r : Rec) : Nat := field r.bytes 1 0
def Rec.length (r : Rec) : Nat := field r.bytes 3 2
def Rec.version (r : Rec) : Nat := field r.bytes 7 4
def Rec.commit (r : Rec) : Bool := bit (field r.bytes 8 8) 0
def Rec.payload (r : Rec) : List Byte := r.bytes.drop 16

/-- The record keeps the layout of Table 1-2: its payload as long as it says, its zero bits and bytes zero. -/
def Rec.laidOut (r : Rec) : Bool :=
  decide (16 ≤ r.bytes.length) && r.payload.length == r.length && decide (r.length ≤ 4032) && decide (field r.bytes 8 8 < 2) &&
    zeroBytes r.bytes 15 9

/-- Length of each type's payload (Table 1-9). -/
def payloadLength (type : Nat) : Option Nat :=
  match type with
  | 1 => some 50
  | 2 => some 40
  | 3 => some 1
  | 4 => some 8
  | 5 => some 4
  | 6 => some 4
  | _ => none

/-- Numbers in a map: below the count of their kind or 0xFF, and none twice. -/
def mapOk (n : Nat) (xs : List Nat) : Bool :=
  xs.all (fun x => decide (x < n) || x == 0xFF) && decide ((xs.filter (· != 0xFF)).Nodup)

/-- The bytes [hi:lo] of a payload as numbers. -/
def bytesAt (p : List Byte) (hi lo : Nat) : List Nat := ((p.drop lo).take (hi + 1 - lo)).map (·.toNat)

/-- The payload keeps the rules of Table 1-9. -/
def payloadOk (type : Nat) (p : List Byte) : Bool :=
  match type with
  | 1 => mapOk 32 (bytesAt p 31 0) && mapOk 16 (bytesAt p 47 32) && mapOk 2 (bytesAt p 49 48)
  | 2 => decide (field p 6 6 < 4) && zeroBytes p 7 7
  | 3 => decide (field p 0 0 ≤ 1)
  | 4 => decide (field p 1 0 ≤ 4600) && decide (field p 3 2 ≤ 3500) && decide (field p 5 4 ≤ 800) && decide (field p 7 6 ≤ 300)
  | 5 => decide (60 ≤ field p 0 0) && decide (field p 0 0 ≤ 95) && decide (field p 1 1 < field p 0 0) &&
      decide (field p 0 0 < field p 2 2) && decide (field p 2 2 ≤ 110) && zeroBytes p 3 3
  | _ => true

/-- The limit a field gives: 0 for the default. -/
def limitOf (x d : Nat) : Nat := if x = 0 then d else x

/-- The configuration with an accepted record in force. -/
def applyPayload (type : Nat) (p : List Byte) (c : Cfg) : Cfg :=
  match type with
  | 1 => { c with cdie := bytesAt p 31 0, mdie := bytesAt p 47 32, iodie := bytesAt p 49 48 }
  | 2 => { c with cfence := BitVec.ofNat 32 (field p 3 0), mfence := BitVec.ofNat 16 (field p 5 4),
                  iofence := BitVec.ofNat 2 (field p 6 6), chfence := BitVec.ofNat 256 (field p 39 8) }
  | 3 => { c with hostSel := field p 0 0 }
  | 4 => { c with limModule := limitOf (field p 1 0) 4600, limCompute := limitOf (field p 3 2) 3500,
                  limMemory := limitOf (field p 5 4) 800, limIo := limitOf (field p 7 6) 300 }
  | 5 => { c with throttle := field p 0 0, release := field p 1 1, fence := field p 2 2 }
  | 6 => { c with floor := field p 3 0 }
  | _ => c

/-- Trailhead's counter of a record type. -/
def recCounter (st : Store) (type : Nat) : Nat := Tab.get 0 st.recCounters type

/-- A record keeps the rules of R18: its length, its zero bits and its fields. -/
def recFormed (r : Rec) : Bool := r.laidOut && payloadLength r.type == some r.length && payloadOk r.type r.payload

/-- A record is accepted: its type known, its signature good, its version not below the counter, its rules kept. -/
def recOk (st : Store) (r : Rec) : Bool :=
  recFormed r && signatureOk r.bytes r.sig && decide (recCounter st r.type ≤ r.version)

/-- A record of a known type, well signed, breaks a rule of R18 and is logged as failed. -/
def recFails (r : Rec) : Bool := (payloadLength r.type).isSome && signatureOk r.bytes r.sig && !recFormed r

/-- A record is rejected for its version alone, and the measurement log says so (R19). -/
def recOld (st : Store) (r : Rec) : Bool :=
  recFormed r && signatureOk r.bytes r.sig && decide (r.version < recCounter st r.type)

/-- The record of a type that governs: the accepted one of highest version. Of several with that version the first in the
store governs, the model's choice where R16 is silent (log 42). -/
def governing (st : Store) (type : Nat) : Option Rec :=
  (st.records.filter (fun r => r.type == type && recOk st r)).foldl (fun m r => match m with
    | none => some r
    | some x => if x.version < r.version then some r else some x) none

/-- The six record types. -/
def recordTypes : List Nat := [1, 2, 3, 4, 5, 6]

/-- The configuration that the store's records give over the defaults. -/
def configOf (st : Store) : Cfg :=
  recordTypes.foldl (fun c t => match governing st t with
    | none => c
    | some r => applyPayload t r.payload c) {}

/-- Extend the measurement log. -/
def Store.extend (st : Store) (x : LogItem) : Store := { st with mlog := st.mlog ++ [x] }

/-- One record in the order of the store: measured, and the counters raised by an accepted one (R14, R19). -/
def takeRecord (st : Store) (r : Rec) : Store :=
  let t := st.extend (.digest (sha512 r.bytes))
  if recOk st r then
    { t with
      recCounters := if r.commit && decide (recCounter st r.type < r.version) then Tab.put 0 t.recCounters r.type r.version
        else t.recCounters
      imgCounter := if r.type = 6 then max t.imgCounter (field r.payload 3 0) else t.imgCounter }
  else if recOld st r then t.extend (.rejected r.type r.version 4)
  else t

/-- The store after every record has been taken. -/
def acceptRecords (st : Store) : Store := st.records.foldl takeRecord st

/-- Why an image is refused: RCV_STAT.reason (Table 1-5). Where several reasons hold, the model takes size, digest, signature
and version in that order (log 42). -/
def imageReason (st : Store) (i : Option Image) : Option Nat :=
  match i with
  | none => some 3
  | some i =>
    if 2 ^ 26 < i.bytes.length then some 5
    else if sha512 i.bytes ≠ Config.imageDigest i.bytes then some 1
    else if !signatureOk i.bytes i.sig then some 2
    else if i.version < st.imgCounter then some 4
    else none

/-- What the check of an image leaves in the measurement log: its digest, and its rejection for its version (R14, R19). -/
def measureImage (st : Store) (i : Image) (reason : Option Nat) : Store :=
  let t := st.extend (.digest (sha512 i.bytes))
  if reason = some 4 then t.extend (.rejected 0 i.version 4) else t

/-! ## Bring-up (R14, R20, R21) -/

/-- Trailhead has accepted image and records: bring-up goes on at step 2. -/
def acceptedBoot (s : State) : State :=
  setReady (fun r => { r with config := true }) (withPkg (fun p => { p with step := max p.step 1 }) s)

/-- Step 1: the records and the image are measured and verified; with no good image the ROM enters recovery. R18 does not say whether the
host port select record's "active I/O die, 0 or 1" is a virtual or a physical number: the model takes it as that of the physical port, its
choice (log 45). -/
def measure (s : State) : State :=
  let st := s.pkg.store
  let cfg := configOf st
  let st1 := acceptRecords st
  let reason := imageReason st1 st1.image
  let st2 := match st1.image with
    | none => st1
    | some i => measureImage st1 i reason
  let t := withPkg (fun p => { p with store := st2, cfg := cfg }) s
  let t := (st.records.filter recFails).foldl (fun u r => logEvent (.recordFailed r.type) u) t
  let t := { t with host := { t.host with active := cfg.hostSel } }
  match reason with
  | none => acceptedBoot t
  | some reason =>
    { (withPkg (fun p => { p with rcv := { p.rcv with state := 1, reason := reason, port := 0 } }) t) with
      host := { t.host with active := 0 } }

/-- The module as power good leaves it, with what Trailhead keeps (R25, Table 1-6), and with what is outside it: whether the
coolant is in range and which dies are hot (R43). -/
def resetKeeping (s : State) : State :=
  { State.reset with
    pkg := { State.reset.pkg with
      store := s.pkg.store, coolantFault := s.pkg.coolantFault
      gatedC := s.pkg.gatedC, gatedM := s.pkg.gatedM, gatedIo := s.pkg.gatedIo }
    inputs := s.inputs, fresh := s.fresh }

/-- POWER_ON: every die but Trailhead is held in reset, and step 1 runs. -/
def execPowerOn (s : State) : Out :=
  .next (if !s.pkg.power then measure (resetKeeping s) else if s.pkg.step = 0 ∧ s.pkg.rcv.state = 0 then measure s else s)

/-- PACKAGE_RESET: PERST# resets Trailhead and the package; memory is written to zero again in step 4 (R25, R26). -/
def execPackageReset (s : State) : Out := .next (measure (resetKeeping s))

/-- POWER_REMOVAL: contexts and memory contents end; the store is kept. -/
def execPowerRemoval (s : State) : Out :=
  let t := resetKeeping s
  .next { t with pkg := { t.pkg with power := false } }

/-- The ROM drives the front end in recovery, until the active I/O die is released, the time after an image was accepted included
(R14, R21). -/
def inRecovery (s : State) : Bool := s.pkg.rcv.state != 0 && !activeReleased s

/-- Every memory die that is not fenced is released. -/
def memReleased (p : Package) : Bool := (List.range 16).all (fun m => p.relM.getLsbD m || p.cfg.mfence.getLsbD m)

/-- Every I/O die that is not fenced is released. -/
def ioReleased (p : Package) : Bool := (List.range 2).all (fun i => p.relIo.getLsbD i || p.cfg.iofence.getLsbD i)

/-- The number of a die kind in Table 1-1's order. -/
def kindCode (k : DieKind) : Nat :=
  match k with
  | .compute => 0
  | .memory => 1
  | .io => 2
  | .trust => 3

/-- The image that the module runs from. -/
def bootImage (p : Package) : List Byte := ((p.rcv.accepted.orElse (fun _ => p.store.image)).map (·.bytes)).getD []

/-- Measure the firmware section of a die before it is released (R14, R15, R20). -/
def measureDie (kind : DieKind) (n : Nat) (s : State) : State :=
  let d := sha512 (Config.imageSection (bootImage s.pkg) (kindCode kind))
  withPkg (fun p => { p with store := p.store.extend (.firmware kind n d) }) s

/-- Deliver a new memory-encryption key to a physical memory die (R24). -/
def deliverKey (n : Nat) (s : State) : State :=
  withPkg (fun p => { p with keys := Tab.put 0 p.keys n (Config.memoryKey p.keysMade), keysMade := p.keysMade + 1 }) s

/-- The bytes that the DRAM of a memory die holds for a line: enciphered with AES-256-XTS under the die's key (R24); where a cache holds
newer data, those that were there before. No access of the manual shows them. -/
def dramBytes (s : State) (l : Nat) : List Byte :=
  let old := Tab.get [] s.mem.stale l
  let plain := if old.isEmpty then memBytes s (128 * l) 128 else old
  let u := Config.dataUnit l
  xtsEncipher (Tab.get 0 s.pkg.keys ((boundM s.pkg (lineDie s l)).getD 0)) u.1 u.2 plain

/-- Release a die in the order of Table 1-4, after its own measurement. Its functions are ready with it, but for those that
come up later (R20). -/
def releaseDie (kind : DieKind) (n : Nat) (s : State) : State :=
  let p := s.pkg
  if !p.ready.config then s
  else
    match kind with
    | .io =>
      if 2 ≤ n ∨ p.cfg.iofence.getLsbD n ∨ p.relIo.getLsbD n ∨ (n ≠ activeIo s ∧ !activeReleased s) then s
      else refreshIo (virtualIo p n) (withPkg (fun p => { p with
        relIo := setBit p.relIo n true, step := max p.step (if n = activeIo s then 2 else 3) }) (measureDie .io n s))
    | .memory =>
      if 16 ≤ n ∨ p.cfg.mfence.getLsbD n ∨ p.relM.getLsbD n ∨ !ioReleased p then s
      else refreshM (virtualM p n) (withPkg (fun p => { p with
        relM := setBit p.relM n true, step := max p.step 4 }) (deliverKey n (measureDie .memory n s)))
    | .compute =>
      if 32 ≤ n ∨ p.cfg.cfence.getLsbD n ∨ p.relC.getLsbD n ∨ !memReleased p then s
      else
        let t := withPkg (fun p => { p with
          relC := setBit p.relC n true, fencedC := setBit p.fencedC n false, firstC := true, step := max p.step 5 })
          (measureDie .compute n s)
        refreshC (virtualC t.pkg n) t
    | .trust => s

/-- DIE_RELEASE. -/
def execDieRelease (kind : DieKind) (n : Nat) (s : State) : Out := .next (releaseDie kind n s)

/-- CHANNEL_TRAIN_COMPLETE: a channel of a physical memory die is trained and zeroed (R20). Memory reads zero since the
reset of its die, so nothing is left to write. -/
def execChannelTrainComplete (die chan : Nat) (s : State) : Out :=
  .next (
    if 16 ≤ die ∨ 16 ≤ chan ∨ !s.pkg.relM.getLsbD die ∨ s.pkg.cfg.chfence.getLsbD (16 * die + chan) then s
    else refreshM (virtualM s.pkg die) (withPkg (fun p => { p with chanUp := setBit p.chanUp (16 * die + chan) true }) s))

/-- The ready bits of the dies that a function belongs to. -/
def refreshFor (f : Function) (n : Nat) (s : State) : State :=
  match f with
  | .cores | .dispatch => refreshC (virtualC s.pkg n) s
  | .base | .mcache => refreshM (virtualM s.pkg n) s
  | .reduce => refreshIo (virtualIo s.pkg n) s

/-- A physical die of a function is released. -/
def dieReleased (p : Package) (f : Function) (n : Nat) : Bool :=
  match f with
  | .cores | .dispatch => p.relC.getLsbD n
  | .base | .mcache => p.relM.getLsbD n
  | .reduce => p.relIo.getLsbD n

/-- A function of a die not released yet will come up after the die's other functions (R20; log 41). -/
def functionLate (f : Function) (n : Nat) (s : State) : State :=
  if dieReleased s.pkg f n then s else withPkg (fun p => { p with late := (f, n) :: p.late.erase (f, n) }) s

/-- A function comes up (R20; log 41). -/
def functionUp (f : Function) (n : Nat) (s : State) : State :=
  refreshFor f n (withPkg (fun p => { p with late := p.late.erase (f, n) }) s)

/-! ## Recovery (R21, R22) -/

/-- RECOVERY_PORT_TIMEOUT: the ROM goes on with the front end of I/O die 1. -/
def execRecoveryPortTimeout (s : State) : Out :=
  .next (
    if inRecovery s && !s.pkg.ready.config && s.pkg.rcv.port == 0 && !s.host.trained.getLsbD 0 then
      { (withPkg (fun p => { p with rcv := { p.rcv with port := 1 } }) s) with host := { s.host with active := 1 } }
    else s)

/-- RECOVERY_GO: verification starts when state is 1 or 4 and attempts is below 3. -/
def execRecoveryGo (s : State) : Out :=
  .next (
    let r := s.pkg.rcv
    if (r.state == 1 || r.state == 4) && decide (r.attempts < 3) then
      withPkg (fun p => { p with rcv := { p.rcv with state := 2, verifying := true } }) s
    else s)

/-- The staged image. -/
def stagedImage (r : Recovery) : Image :=
  let bs := (List.range r.size.toNat).map (fun i => Tab.get 0 r.staging i)
  { version := Config.imageVersion bs, bytes := bs, sig := Config.imageSignature bs }

/-- RECOVERY_VERIFY_DONE: an accepted image boots; a rejected one counts an attempt. The active I/O die stays the one whose
front end recovery uses: the manual does not say whether the host port select record comes into force at such a boot (the
model's choice, log 42). -/
def execRecoveryVerifyDone (s : State) : Out :=
  .next (
    let r := s.pkg.rcv
    if r.state ≠ 2 then s
    else
      let i := stagedImage r
      let reason := if 2 ^ 26 < r.size.toNat then some 5 else imageReason s.pkg.store (some i)
      let t := withPkg (fun p => { p with store := measureImage p.store i reason }) s
      match reason with
      | none => acceptedBoot (withPkg (fun p => { p with
          rcv := { p.rcv with state := 3, verifying := false, accepted := some i } }) t)
      | some reason => withPkg (fun p => { p with
          rcv := { p.rcv with state := 4, verifying := false, attempts := p.rcv.attempts + 1, reason := reason } }) t)

/-- RECOVERY_COMMIT: while state is 3 and no compute die has been released, the accepted image is written to the store and
the image counter rises to its version. -/
def execRecoveryCommit (s : State) : Out :=
  .next (
    if s.pkg.rcv.state = 3 ∧ !s.pkg.firstC then
      match s.pkg.rcv.accepted with
      | none => s
      | some i => withPkg (fun p => { p with store := { p.store with image := some i, imgCounter := max p.store.imgCounter i.version } }) s
    else s)

/-! ## SPDM (R23; log 8) -/

/-- Answer a request that came by Data Object Exchange: nothing while the active port's link is down, retry status before its
I/O die is released (R14, R23). -/
def byDoe (f : State → State) (s : State) : State :=
  if !s.host.trained.getLsbD s.host.active then s
  else if !activeReleased s then respond .crs s
  else f s

/-- An answer whose bytes the manual does not give. -/
def respondFree (s : State) : State := respond (.spdmBytes (Config.spdmFree s.fresh)) { s with fresh := s.fresh + 1 }

/-- GET_VERSION: 1.2 and 1.3, as two hexadecimal digits. -/
def execGetVersion (s : State) : Out := .next (byDoe (respond (.spdmVersions [0x12, 0x13])) s)

/-- GET_CAPABILITIES: the eight requests it supports, numbered in the order of R23. -/
def execGetCapabilities (s : State) : Out := .next (byDoe (respond (.spdmCapabilities (List.range 8))) s)

/-- NEGOTIATE_ALGORITHMS: TPM_ALG_SHA_512 and TPM_ALG_RSASSA_4096. -/
def execNegotiateAlgorithms (version : Nat) (s : State) : Out :=
  .next (byDoe (fun s =>
    if version = 0x12 ∨ version = 0x13 then
      respond (.spdmAlgorithms 512 4096) (withPkg (fun p => { p with spdm := { p.spdm with version := some version, algorithms := true } }) s)
    else respondFree s) s)

/-- GET_DIGESTS. -/
def execGetDigests (s : State) : Out := .next (byDoe (respond (.spdmDigest (sha512 Config.spdmCertificate))) s)

/-- GET_CERTIFICATE. -/
def execGetCertificate (s : State) : Out := .next (byDoe (respond (.spdmBytes Config.spdmCertificate)) s)

/-- CHALLENGE: the answer's bytes are the manual's to give and it does not (log 8). -/
def execChallenge (_nonce : List Byte) (s : State) : Out := .next (byDoe respondFree s)

/-- The bytes of the governing record of a type, or none where it is absent. -/
def recordBytesOf (st : Store) (type : Nat) : List Byte := ((governing st type).map (·.bytes)).getD []

/-- The bytes that an entry of the measurement log is extended by. -/
def LogItem.bytes (x : LogItem) : List Byte :=
  match x with
  | .digest d => bytesOf 64 d.toNat
  | .firmware _ _ d => bytesOf 64 d.toNat
  | .rejected t v r => Config.rejectionBytes t v r

/-- The measurement log's digest. -/
def logDigest (st : Store) : BitVec 512 := sha512 (st.mlog.flatMap LogItem.bytes)

/-- GET_MEASUREMENTS: index 1 the image, 2-7 the record types, 8 the measurement log digest. -/
def execGetMeasurements (index : Nat) (s : State) : Out :=
  .next (byDoe (fun s =>
    let st := s.pkg.store
    match index with
    | 1 => respond (.measurement 1 (sha512 (bootImage s.pkg))) s
    | 8 => respond (.measurement 8 (logDigest st)) s
    | n => if 2 ≤ n ∧ n ≤ 7 then respond (.measurement n (sha512 (recordBytesOf st (n - 1)))) s else respondFree s) s)

/-- KEY_EXCHANGE: one more session; the answer's bytes are not given. -/
def execKeyExchange (_data : List Byte) (s : State) : Out :=
  .next (byDoe (fun s => respondFree (withPkg (fun p => { p with spdm := { p.spdm with sessions := p.spdm.sessions + 1 } }) s)) s)

/-! ## Loss of a compute die (R28; 08 R219) -/

/-- Poison the four sectors of a line, with the bytes that memory holds (R219). -/
def poisonLine (l : Nat) (s : State) : State :=
  let old := Tab.get [] s.mem.stale l
  let t := if old.isEmpty then s
    else { s with mem := { s.mem with cells := Tab.putAll 0 s.mem.cells (cellsAt (128 * l) old), stale := Tab.put [] s.mem.stale l [] } }
  (List.range 4).foldl (fun u i => poison u (4 * l + i)) t

/-- What a home does with a line that names a lost agent. An owner in X whose last message was a clean eviction notice is its
owner no more; any other is taken to hold the line in M. -/
def loseAtHome (agent l : Nat) (s : State) : State :=
  let e := homeGet s l
  if e.owner = some agent then
    match e.hstate with
    | .o =>
      let f := dropSharer { e with owner := none } agent
      if anySharer f then homePut { f with hstate := .s } (writeDram l s) else homePut { f with hstate := .i } (poisonLine l s)
    | _ => homePut { e with owner := none, hstate := .i } (poisonLine l s)
  else
    let f := dropSharer e agent
    homePut { f with hstate := if e.hstate = .s ∧ !anySharer f then .i else e.hstate } s

/-- What the proxy does with a foreign line that a lost die held: one it held in X is lost, with data that only it had. -/
def loseAtProxy (die l : Nat) (s : State) : State :=
  let p := proxyGet s l
  let t := if p.x && p.dies.getLsbD die then poisonLine l s else s
  proxyPut l { dies := p.dies &&& ~~~(BitVec.twoPow 32 die), x := p.x && !p.dies.getLsbD die } t

/-- Every line that names a lost compute die is processed at its home, or at the proxy. -/
def loseLines (die : Nat) (s : State) : State :=
  let ls := ((s.coh.home.map (·.line)) ++ ((s.coh.l2.filter (fun x => x.die == die)).map (·.line))).eraseDups
  let t := ls.foldl (fun u l => if ownLine u l then loseAtHome die l u else loseAtProxy die l u) s
  { t with coh := { t.coh with
      l1 := t.coh.l1.filter (fun x => x.die != die)
      l2 := t.coh.l2.filter (fun x => x.die != die)
      monitors := t.coh.monitors.filter (fun m => m.die != die)
      polling := t.coh.polling.filter (fun p => p.1 != die) } }

/-- The operation has not reached a home. -/
def unreached (o : Op) : Bool := decide (o.done < 5)

/-- Abandon what was issued on a lost die and reached no home, by resident waves and by waves that have left it since:
whoever holds its tag takes DIELOST at the lowest address that it names (R28, 09 R235). -/
def abandonDie (die : Nat) (s : State) : State :=
  (s.ops.filter (fun o => o.die == die && unreached o)).foldl (fun t o =>
    faultOp o { cause := causeDielost, addr := opAddr o, detail := 0, slots := 0 } t) s

/-- A re-run's waves: every key empty with a new generation, every arrival bit clear (04 R101); the fault entries that the record holds
stay (09 Table 9-6). -/
def restartWave (live : Group) (w : Wave) : Wave :=
  let old := ((live.peers.find? (fun x => x.idx == w.idx)).map (·.keys.gen)).getD w.keys.gen
  { w with keys := { w.keys with
      tags := [], arrival := 0, queue := [], gen := Tab.ofFn 0 16 (fun k => (Tab.get 0 old k + 1) % 4096) } }

/-- The dispatch unit of the lowest ready die of a span takes the queues of a lost one; with none left the context is
suspended (R28). -/
def passQueues (die : Nat) (s : State) : State :=
  (List.range 32).foldl (fun t ctx =>
    let c := ctxGet t ctx
    if c.state = 0 ∨ !(ctxDies c).contains die then t
    else
      match (ctxDies c).find? (fun d => t.pkg.ready.disp.getLsbD d) with
      | some d =>
        let u := { t with queues := t.queues.map (fun q => if q.ctx = ctx ∧ q.server = die then { q with server := d } else q) }
        (t.queues.filter (fun q => q.ctx == ctx && q.server == die)).foldl (fun v q => watchQueue { q with server := d } v) u
      | none => stopQueues true ctx (ctxPut t ctx { c with state := 2 })) s

/-- A group of a lost die: re-run from its record when its launch declared restartable phases, held back where its context or its grid is
suspended or pre-empted, else complete with error. The chains and held arrivals that a full save keeps come back with it (04 R98,
R101, R113). -/
def loseGroup (g : Group) (s : State) : State :=
  let h := groupHandle g
  if bit g.desc.gflags 1 then
    let kept := (recordOf s h).bind (·.saved)
    let held := gridHeld s g || (ctxGet s g.ctx).suspending
    let u := { s with groups := s.groups.filter (fun x => groupHandle x != h) }
    let t := followSaved (modRecord h (fun r => { r with
      heldBack := r.heldBack || held, saved := r.saved.map (fun x => { x with peers := x.peers.map (restartWave g) }) }) u) u
    g.peers.foldl (fun u w => leaveSlots w.handle u) { t with
      groups := t.groups.filter (fun x => groupHandle x != h)
      chains := t.chains.filter (fun c => c.group != h) ++ (kept.map (·.chains)).getD []
      held := t.held.filter (fun x => x.group != h) ++ (kept.map (·.holds)).getD [] }
  else completeGroup g true s

/-- Nothing but a restart keeps the group off its core. -/
def heldByNone (s : State) (g : Group) : Bool :=
  (ctxGet s g.ctx).state == 1 && !(ctxGet s g.ctx).suspending && !gridHeld s g

/-- A restart has ended: groups that nothing else asks to leave stay, and continuations that nothing else holds back are let go
(04 R109). -/
def liftHolds (s : State) : State :=
  holdRecords false (fun g => heldByNone s g && !restartHeld s g) (unaskGroups (heldByNone s) s)

/-- The restart of a die ends, done or abandoned. -/
def endRestart (die : Nat) (s : State) : State :=
  withPkg (fun p => { p with restartC := setBit p.restartC die false, restartOf := p.restartOf.filter (fun x => x.1 != die) }) s

/-- What a die keeps of translations, and the walks of its walkers. -/
def dropTlbs (die : Nat) (s : State) : State :=
  { s with xlt := { s.xlt with
      core := tlbFilter [die] 32 (fun _ => false) s.xlt.core, biv := tlbFilter [die] 16 (fun _ => false) s.xlt.biv
      die := s.xlt.die.filter (fun e => e.1 != die), walker := s.xlt.walker.filter (fun e => e.1 != die)
      walks := s.xlt.walks.filter (fun x => x.die != die) } }

/-- The virtual compute die is lost; a restart of it under way ends, and what it held back may be placed. -/
def loseDie (die : Nat) (s : State) : State :=
  let t := if focused s && s.g.die == die then park s else s
  let gone := t.groups.filter (fun g => g.die == die)
  let lost := boundC s.pkg die
  let t := endRestart die t
  let t := match lost with
    | none => t
    | some n => refreshC [die] (withPkg (fun p => { p with
        fencedC := setBit p.fencedC n true, relC := setBit p.relC n false }) t)
  let t := abandonDie die (passQueues die (loseLines die t))
  dropTlbs die (liftHolds (gone.foldl (fun u g => loseGroup g u) t))

/-- The physical die that a virtual compute die is bound to is released, though cores of it may still be late (R20, R28). -/
def releasedC (s : State) (die : Nat) : Bool := (boundC s.pkg die).any (fun n => s.pkg.relC.getLsbD n)

/-- COMPUTE_DIE_LOSS: a released die fails. -/
def execComputeDieLoss (die : Nat) (s : State) : Out :=
  .next (if releasedC s die then settleAll (loseDie die s) else s)

/-! ## Orderly restart (R27) -/

/-- Groups that leave with a die's groups: a co-resident grid goes whole (Table 1-7). -/
def restartScope (s : State) (die : Nat) (g : Group) : Bool :=
  g.die == die || (g.coresident && (allGroups s).any (fun x => x.die == die && ofGrid x.ctx x.queue x.packet g))

/-- The die writes back every dirty line and drops its caches and TLBs. -/
def drainDie (die : Nat) (s : State) : State :=
  let t := (s.coh.l2.filter (fun x => x.die == die)).foldl (fun u x => leaveDie die x.line u) s
  let t := { t with coh := { t.coh with l2 := t.coh.l2.filter (fun x => x.die != die) } }
  dropTlbs die t

/-- The co-resident grids with a group on the die. -/
def restartGrids (s : State) (die : Nat) : List (Nat × Nat × Nat × Nat) :=
  ((allGroups s).filter (fun g => g.die == die && g.coresident)).map (fun g => (die, g.ctx, g.queue, g.packet))

/-- A group on the die, or one of a co-resident grid that had a group there when it was asked to leave, is still resident (Table 1-7). -/
def restartWaits (s : State) (die : Nat) : Bool :=
  (allGroups s).any (fun g => g.die == die || s.pkg.restartOf.contains (die, g.ctx, g.queue, g.packet))

/-- What the die's store queues and engines have still to bring to a home (R27). -/
def dieStores (s : State) (die : Nat) : List Op :=
  s.ops.filter (fun o => o.die == die && unreached o && match o.kind with
    | .store false _ | .copy _ | .stateOut .. => true
    | _ => false)

/-- The reset of a compute die in an orderly restart: its bits clear, it is fenced, reset, measured again and released, and its
bits are set. -/
def resetDie (die : Nat) (s : State) : State :=
  match boundC s.pkg die with
  | none => s
  | some n =>
    let t := refreshC [die] (withPkg (fun p => { p with
      fencedC := setBit p.fencedC n true, relC := setBit p.relC n false }) (drainDie die s))
    refreshC [die] (withPkg (fun p => { p with
      fencedC := setBit p.fencedC n false, relC := setBit p.relC n true }) (measureDie .compute n t))

/-- COMPUTE_DIE_RESTART: the die takes no more phases and its groups are pre-empted; once they are gone and its stores are at
their homes it drains and is reset, and what it held back may be placed. -/
def execComputeDieRestart (die : Nat) (s : State) : Out :=
  .next (
    if !s.pkg.ready.cdie.getLsbD die then s
    else if restartWaits s die then
      preemptGroups (restartScope s die) (withPkg (fun p => { p with
        restartC := setBit p.restartC die true, restartOf := (p.restartOf ++ restartGrids s die).eraseDups }) s)
    else if !(dieStores s die).isEmpty then withPkg (fun p => { p with restartC := setBit p.restartC die true }) s
    else liftHolds (endRestart die (resetDie die s)))

/-! ## Remapping (R12, R13) -/

/-- Replace element n of a list. -/
def setAt (xs : List Nat) (n v : Nat) : List Nat := xs.mapIdx (fun i x => if i = n then v else x)

/-- A virtual compute die is bound to another physical die: the old one is fenced first. -/
def remapDie (v phys : Nat) (s : State) : State :=
  let old := s.pkg.cfg.cdie[v]?.getD 0xFF
  refreshC [v] (withPkg (fun p => { p with
    fencedC := if old < 32 then setBit p.fencedC old true else p.fencedC
    relC := if old < 32 then setBit p.relC old false else p.relC
    cfg := { p.cfg with cdie := setAt p.cfg.cdie v phys } }) (drainDie v s))

/-- The virtual die holds no phase. -/
def dieEmpty (s : State) (v : Nat) : Bool := (allGroups s).all (fun g => g.die != v)

/-- VDIE_REMAP: to a physical die that no virtual number is bound to; while a phase is resident on the virtual die the remap
waits (R12, Table 1-7). -/
def execVdieRemap (v phys : Nat) (s : State) : Out :=
  .next (
    if 32 ≤ v ∨ 32 ≤ phys ∨ s.pkg.cfg.cdie.contains phys then s
    else if dieEmpty s v then remapDie v phys s
    else withPkg (fun p => { p with remaps := p.remaps.filter (fun x => x.1 != v) ++ [(v, phys)] }) s)

/-- A remap that waited takes effect. -/
def waitingRemap (s : State) : Option State :=
  (s.pkg.remaps.find? (fun x => dieEmpty s x.1)).map (fun x =>
    let t := withPkg (fun p => { p with remaps := p.remaps.erase x }) s
    if s.pkg.cfg.cdie.contains x.2 then t else remapDie x.1 x.2 t)

/-- Storage of a memory die holds a block moved to it, or is to receive one. -/
def holdsBlocks (s : State) (m : Nat) : Bool :=
  s.svc.redirect.any (fun e => match e.2 with
    | some x => x.1 == m
    | none => false) || s.svc.moves.any (fun x => x.tdie == m || x.die == m)

/-- MDIE_REMAP: a virtual memory die whose pages have been evacuated, its own and those moved to it, is bound to a free
physical one (R13). -/
def execMdieRemap (v phys : Nat) (s : State) : Out :=
  .next (
    if 16 ≤ v ∨ 16 ≤ phys ∨ s.pkg.cfg.mdie.contains phys ∨ !s.svc.offline.getLsbD v ∨ holdsBlocks s v then s
    else refreshM [v] (withPkg (fun p => { p with cfg := { p.cfg with mdie := setAt p.cfg.mdie v phys } }) s))

/-! ## Heat and coolant (R41-R43) -/

/-- Gate, or release, the issue of a die by its kind and physical number. -/
def gateDie (kind : DieKind) (n : Nat) (b : Bool) (p : Package) : Package :=
  match kind with
  | .compute => { p with gatedC := setBit p.gatedC n b }
  | .memory => { p with gatedM := setBit p.gatedM n b }
  | .io => { p with gatedIo := setBit p.gatedIo n b }
  | .trust => p

/-- THERMAL_THROTTLE. -/
def execThermalThrottle (kind : DieKind) (n : Nat) (s : State) : Out := .next (withPkg (gateDie kind n true) s)

/-- THERMAL_RELEASE. -/
def execThermalRelease (kind : DieKind) (n : Nat) (s : State) : Out := .next (withPkg (gateDie kind n false) s)

/-- COMPUTE_DIE_OVERTEMP: handled as a loss of the die; an orderly restart is abandoned. -/
def execComputeDieOvertemp (die : Nat) (s : State) : Out :=
  .next (if releasedC s die then logEvent (.overtemp .compute die) (settleAll (loseDie die s)) else s)

/-- MEMDIE_OVERTEMP: the die stays in service at minimum bandwidth and the host is notified. -/
def execMemdieOvertemp (kind : DieKind) (n : Nat) (s : State) : Out :=
  .next (match kind with
    | .memory => logEvent (.overtemp .memory n) (withPkg (fun p => { p with minBwM := setBit p.minBwM n true }) s)
    | .io => logEvent (.overtemp .io n) (withPkg (fun p => { p with minBwIo := setBit p.minBwIo n true }) s)
    | _ => s)

/-- The module limit in force in W: 2,300 while the coolant is out of range (R43). -/
def moduleLimit (p : Package) : Nat := if p.coolantFault then min 2300 p.cfg.limModule else p.cfg.limModule

/-- COOLANT_FAULT. -/
def execCoolantFault (s : State) : Out := .next (withPkg (fun p => { p with coolantFault := true }) s)

/-- COOLANT_RESTORED. -/
def execCoolantRestored (s : State) : Out := .next (withPkg (fun p => { p with coolantFault := false }) s)

/-- ECC_UNCORRECTABLE: the sector takes its poison pattern in place (R36). -/
def execEccUncorrectable (sector : Nat) (s : State) : Out := .next (logEvent (.ecc sector) (poison s sector))

/-- An uncorrectable error in local memory: the sector takes its poison pattern in place (R36; log 41). -/
def eccLocal (h : BitVec 64) (sector : Nat) (s : State) : State :=
  logEvent (.ecc sector) (mapGroup (groupOf h) (fun g => if 32 * sector < g.desc.lsize then locPoison g sector else g) s)

/-- A correction by ECC is counted for its die, and for its memory channel (R36; log 41). -/
def eccCorrected (kind : DieKind) (n : Nat) (chan : Option Nat) (s : State) : State :=
  let i := 64 * kindCode kind + n
  withPkg (fun p => { p with
    eccDie := Tab.put 0 p.eccDie i (Tab.get 0 p.eccDie i + 1)
    eccChan := match kind, chan with
      | .memory, some c => Tab.put 0 p.eccChan (16 * n + c) (Tab.get 0 p.eccChan (16 * n + c) + 1)
      | _, _ => p.eccChan }) s

end Sys2Proof.Machine
end

