-- ==== Sys2Proof/Machine/Rounds.lean ====
section
/-!
DEFINITION. The end of a reduction round: its result record, and its failures (02 R61, R62).
-/

namespace Sys2Proof.Machine

open Sys2Proof

/-- End a round: the record is written as a whole sector, the sequence advances (R61). -/
def endRound (g : Nat) (value : BitVec 64) (status : Nat) (s : State) : State :=
  let x := redGet s g
  let a := storagePlace s x.result.toNat
  redPut (deviceWrite fullQuota [] ((List.range 32).map (a + ·)) (recordBytes value x.seq status) s) g
    { x with seq := x.seq + 1, contribs := [] }

/-- REDUCTION_RESULT: with every member's contribution in, the round ends with the combined value. -/
def execReductionResult (group : Nat) (s : State) : Out :=
  .next (
    let x := redGet s group
    if x.enable && !(membersList x).isEmpty && (membersList x).all (fun m => x.contribs.any (fun c => c.1 == m)) then
      let r := redTree x.type x.op 6 (orderedContribs x)
      endRound group (BitVec.ofNat 64 r.val) ((if r.ovf then 4 else 0) + (if r.nan then 8 else 0)) s
    else s)

/-- REDUCTION_TIMEOUT: a round whose first contribution is too old ends with value zero and status bit 0 (R62). -/
def execReductionTimeout (group : Nat) (s : State) : Out :=
  .next (
    let x := redGet s group
    if x.enable && !x.contribs.isEmpty then endRound group 0 1 s else s)

/-- A member of an open round became unreachable: value zero and status bit 1 (R62). A round is under way once it holds an
accepted contribution, the model's reading (log 42). -/
def loseMember (module : Nat) (s : State) : State :=
  (List.range 256).foldl (fun t g =>
    let x := redGet t g
    if x.enable && !x.contribs.isEmpty && x.members.getLsbD module then endRound g 0 2 t else t) s

end Sys2Proof.Machine
end

