-- ==== Sys2Proof/Machine/HostLink.lean ====
section
/-!
DEFINITION. The host link and what the host does through it: ports and failover, the window onto main memory, register
writes, creation of contexts; and the Guyline links (02 R44-R53, R62, R63; 01 R14, R33, R38-R40; 03 R68, R69; 08 R219).
-/

namespace Sys2Proof.Machine

open Sys2Proof

/-! ## Host ports (R44, R48) -/

/-- Raise the link vector (R46). -/
def linkVector (s : State) : State := raiseMsix 1 s

/-- A port's front end may train: in recovery the one the ROM brought up, else an unfenced one whose die is released or
which is to become active (01 R13, R14, R21) (log 32). -/
def portUp (s : State) (n : Nat) : Bool :=
  if inRecovery s then s.pkg.rcv.port == n
  else !s.pkg.cfg.iofence.getLsbD n && (s.pkg.relIo.getLsbD n || activeIo s == n)

/-- HOST_PORT_TRAINED: the link of a port, named by its physical I/O die, is up with the negotiated rate and width. -/
def execHostPortTrained (port rate width : Nat) (s : State) : Out :=
  .next (
    if 2 ≤ port ∨ !portUp s port then s
    else refreshIo (virtualIo s.pkg port)
      { s with host := { s.host with
          trained := setBit s.host.trained port true, down := setBit s.host.down port false
          rate := Tab.put 0 s.host.rate port rate, width := Tab.put 0 s.host.width port width } })

/-- HOST_PORT_DL_DOWN: the link of a port goes down (log 32). -/
def execHostPortDlDown (port : Nat) (s : State) : Out :=
  .next (
    if 2 ≤ port ∨ !s.host.trained.getLsbD port then s
    else refreshIo (virtualIo s.pkg port)
      { s with host := { s.host with trained := setBit s.host.trained port false, down := setBit s.host.down port true } })

/-- The standby port takes over where it is trained. The MSI-X messages not acknowledged are sent again; writes to host memory
not acknowledged stay in flight and are acknowledged on the new port (Table 2-3). -/
def takeOver (s : State) : State :=
  let other := 1 - s.host.active
  if s.host.trained.getLsbD other then
    linkVector { s with host := { s.host with active := other, msix := s.host.msix ++ s.host.unacked } }
  else s

/-- PORT_FAILOVER: the active port has been down for 10 ms. -/
def execPortFailover (s : State) : Out := .next (if s.host.down.getLsbD s.host.active then takeOver s else s)

/-- TAKEOVER: FAB_CTL.takeover written through the standby port. -/
def execTakeover (s : State) : Out := .next (takeOver s)

/-- HOST_CONFIG_REQUEST: retry status before the I/O die is released, an answer after (01 R14). -/
def execHostConfigRequest (port : Nat) (s : State) : Out :=
  .next (respond (if s.pkg.relIo.getLsbD port then .configOk else .crs) s)

/-- An MSI-X message, the oldest, is acknowledged (Table 2-3; log 41). -/
def ackMsix (s : State) : State := { s with host := { s.host with unacked := s.host.unacked.drop 1 } }

/-- Configuration space of a port (R44, R45): a standby port's BAR2 has size zero. -/
def configValue (s : State) (port : Nat) (r : CfgReg) : Nat :=
  match r with
  | .linkRate => Tab.get 0 s.host.rate port
  | .linkWidth => Tab.get 0 s.host.width port
  | .physicalFunctions => 1
  | .virtualFunctions => 0
  | .maxPayload => 512
  | .maxReadRequest => 4096
  | .tagBits => 10
  | .ats => 0
  | .pri => 0
  | .msixVectors => 2048
  | .doe => 1
  | .ide => 1
  | .bar0Size => 2 ^ 26
  | .bar2Size => if port = s.host.active then 2 ^ s.host.bar2Size else 0

/-- A configuration request that reads a register: retry status before the I/O die is released (01 R14; log 41). -/
def readConfig (port : Nat) (r : CfgReg) (s : State) : State :=
  if !s.host.trained.getLsbD port then s
  else respond (if s.pkg.relIo.getLsbD port then .config (configValue s port r) else .crs) s

/-- BAR2 resized by the host, from 1 GiB to 1 TiB in powers of two (R45; log 41). -/
def resizeBar2 (n : Nat) (s : State) : State :=
  if activeReleased s && decide (30 ≤ n) && decide (n ≤ 40) then { s with host := { s.host with bar2Size := n } } else s

/-- A selective stream is keyed, through a session that KEY_EXCHANGE opened (R44; log 41). -/
def keyStream (n : Nat) (s : State) : State :=
  if 0 < s.pkg.spdm.sessions ∧ !s.host.ide.contains n then { s with host := { s.host with ide := n :: s.host.ide } } else s

/-! ## The window onto main memory (R45; 01 R21, R31, R33, R39) -/

/-- Memory die and channel of a region 0 offset are ready: of the place that its home block has now. -/
def channelReady (s : State) (o : Nat) : Bool :=
  let h := storageOf s o
  bits s.pkg.ready.chan.toNat (16 * h.1 + 15) (16 * h.1) == 0xFFFF ||
    s.pkg.ready.chan.getLsbD (16 * h.1 + Config.channelOf h.2 % 16)

/-- Where an access of the host goes. -/
inductive Window where
  | staging
  | memory (base : Nat)
  | unsupported

/-- The window of an access of n bytes at a BAR2 offset; beyond BAR2's size no BAR is named (log 42). -/
def windowOf (s : State) (off n : Nat) : Window :=
  if !activeReleased s then
    if inRecovery s && decide (off + n ≤ 2 ^ 26) then .staging else .unsupported
  else if 2 ^ s.host.bar2Size < off + n ∨ 2 ^ 40 < s.host.bar2Base + off + n then .unsupported
  else .memory (s.host.bar2Base + off)

/-- The bytes of a write whose channel is ready. -/
def readyCells (s : State) (base : Nat) (bytes : List Byte) : List (Nat × Byte) :=
  (cellsAt base bytes).filter (fun c => channelReady s c.1)

/-- HOST_BAR2_WRITE. -/
def execHostBar2Write (off : Nat) (bytes : List Byte) (s : State) : Out :=
  .next (
    match windowOf s off bytes.length with
    | .unsupported => respond .ur s
    | .staging => withPkg (fun p => { p with rcv := { p.rcv with staging := Tab.putAll 0 p.rcv.staging (cellsAt off bytes) } }) s
    | .memory base =>
      let ok := readyCells s base bytes
      let t := deviceWrite fullQuota [] (ok.map (fun c => storagePlace s (ownPa s c.1))) (ok.map (·.2)) s
      if ok.length < bytes.length then logEvent (.writeDiscarded base) t else t)

/-- Sectors of a read that leave poisoned, each logged (01 R33). -/
def egress (s : State) (ps : List Nat) : State :=
  let bad := (readSectors ps).filter (fun x => sectorDev s x != 0)
  bad.foldl (fun t x => logEvent (.poisonSent x) t)
    (respond (.data (ps.map (loadByte s)) (!bad.isEmpty)) s)

/-- HOST_BAR2_READ: a coherent read of class 0 (07 R185, R186). -/
def execHostBar2Read (off len : Nat) (s : State) : Out :=
  .next (
    match windowOf s off len with
    | .unsupported => respond .ur s
    | .staging => respond (.data ((List.range len).map (fun i => Tab.get 0 s.pkg.rcv.staging (off + i))) false) s
    | .memory base =>
      let ps := (List.range len).map (fun i => storagePlace s (ownPa s (base + i)))
      if (List.range len).all (fun i => channelReady s (base + i)) then egress (deviceReads fullQuota [] ps s) ps
      else respond .ur s)

/-! ## Guyline links (R51, R53; 08 R219) -/

/-- The I/O die of a link, by its virtual number, is bound to a released one (01 R13; R51). -/
def linkDieUp (s : State) (link : Nat) : Bool := (boundIo s.pkg (link / 9)).any (fun n => s.pkg.relIo.getLsbD n)

/-- GUYLINE_LINK_READY: links 0-8 belong to I/O die 0, links 9-17 to I/O die 1. What waits for a link is sent over it. -/
def execGuylineLinkReady (link : Nat) (s : State) : Out :=
  .next (
    if 18 ≤ link ∨ !linkDieUp s link then s
    else resend (setReady (fun r => { r with guyline := setBit r.guyline link true }) s))

/-- LINK_FAILURE: the ready bit clears, the error bit sets, routing excludes the link, and its requests are sent again. -/
def execLinkFailure (link : Nat) (s : State) : Out :=
  .next (
    if 18 ≤ link ∨ !s.pkg.ready.guyline.getLsbD link then s
    else resend (linkVector (setReady (fun r => { r with guyline := setBit r.guyline link false })
      { s with fab := { s.fab with err := setBit s.fab.err link true } })))

/-- MODULE_UNREACHABLE: homes process the lines that the module's proxy held, and reduction rounds with the module as
member end. -/
def execModuleUnreachable (module : Nat) (s : State) : Out :=
  .next (
    if module = s.fab.module then s
    else
      let ls := (s.coh.home.filter (fun e => e.owner == some (64 + module) || e.mods.contains module)).map (·.line)
      loseMember module (ls.foldl (fun t l => loseAtHome (64 + module) l t) s))

/-! ## Register writes (00 R8) -/

/-- The writable fields of a value: what is written to the other fields is ignored. -/
def fieldsOf (v mask : Nat) : Nat := Nat.land v mask

/-- Index of a register in a bank of n at base, with a stride. -/
def bankIndex (off base stride n : Nat) : Option Nat :=
  if base ≤ off ∧ off < base + stride * n ∧ (off - base) % stride = 0 then some ((off - base) / stride) else none

/-- Swap two module numbers in an address of unit-byte things. -/
def swapModule (a b unit x : Nat) : Nat :=
  let m := paModule (unit * x)
  let n := if m = a then b else if m = b then a else m
  x % (2 ^ 46 / unit) + n * (2 ^ 46 / unit)

/-- The module takes another number: its memory, and the lines of it in caches, are named by the new one; what stood under the
new number is named by the old one. The manual does not say what a change of number does to memory: the model's choice
(log 42). -/
def renumber (n : Nat) (s : State) : State :=
  let f := swapModule s.fab.module n
  { s with
    fab := { s.fab with module := n }
    mem := { cells := Tab.putAll 0 [] (s.mem.cells.map (fun c => (f 1 c.1, c.2)))
             dev := Tab.putAll 0 [] (s.mem.dev.map (fun c => (f 32 c.1, c.2)))
             stale := Tab.putAll [] [] (s.mem.stale.map (fun c => (f 128 c.1, c.2))) }
    coh := { s.coh with
      l1 := s.coh.l1.map (fun x => { x with line := f 128 x.line })
      l2 := s.coh.l2.map (fun x => { x with line := f 128 x.line })
      home := s.coh.home.map (fun x => { x with line := f 128 x.line })
      mcache := s.coh.mcache.map (fun x => { x with line := f 128 x.line })
      monitors := s.coh.monitors.map (fun x => { x with line := f 128 x.line })
      polling := s.coh.polling.map (fun x => (x.1, f 128 x.2)) } }

/-- FAB_ID: only while no context exists (R63). -/
def writeFabId (v : Nat) (s : State) : State :=
  if s.ctxs.any (fun e => e.2.state != 0) then s
  else
    let t := renumber (bits v 5 0) s
    { t with fab := { t.fab with valid := bit v 7 } }

/-- FAB_LINK: enable is written, error bits are cleared by ones. -/
def writeFabLink (v : Nat) (s : State) : State :=
  { s with fab := { s.fab with enable := BitVec.ofNat 18 v, err := s.fab.err &&& ~~~(BitVec.ofNat 18 (v / 2 ^ 18)) } }

/-- FAB_ROUTE: a change raises the link vector (R46). -/
def writeRoute (m v : Nat) (s : State) : State :=
  if Tab.get 0 s.fab.route m = BitVec.ofNat 18 v then s
  else linkVector { s with fab := { s.fab with route := Tab.put 0 s.fab.route m (BitVec.ofNat 18 v) } }

/-- PHR_AREA: only while the context is free (04 R96). -/
def writeArea (c : Nat) (v : BitVec 64) (s : State) : State :=
  if (ctxGet s c).state ≠ 0 then s else ctxPut s c { ctxGet s c with phrArea := v }

/-- The fields of CTX_QUOTA (07 Table 7-3). -/
abbrev quotaMask : Nat := 0x000FFFFF000FFFFF

/-- CTX_QUOTA: ignored while the context is free (07 R187). -/
def writeQuota (c : Nat) (v : BitVec 64) (s : State) : State :=
  if (ctxGet s c).state = 0 then s else ctxPut s c { ctxGet s c with quota := v }

/-- MEM_LEND: at most 4,096, and removing no lend block that holds a moved block (08 R217). -/
def writeLend (m n : Nat) (s : State) : State :=
  let old := Tab.get 0 s.svc.lend m
  if 4096 < n ∨ (List.range (old - n)).any (fun i => holdsMoved s m (4096 - old + i)) then s
  else { s with svc := { s.svc with lend := Tab.put 0 s.svc.lend m n } }

/-- A register of a bank. -/
def writeBank (off n : Nat) (s : State) : State :=
  match bankIndex off 0x20100 8 64, bankIndex off 0x30100 8 32, bankIndex off 0x40000 8 32, bankIndex off 0x50100 8 16 with
  | some m, _, _, _ => writeRoute m (fieldsOf n 0x3FFFF) s
  | _, some c, _, _ => writeArea c (BitVec.ofNat 64 (fieldsOf n 0xFFFFF0FFFFF00000)) s
  | _, _, some c, _ => writeQuota c (BitVec.ofNat 64 (fieldsOf n quotaMask)) s
  | _, _, _, some m => writeLend m (fieldsOf n 0x1FFF) s
  | _, _, _, _ => s

/-- A write of a register that has no row of its own, the I/O die being released. -/
def writeReg (off : Nat) (v : BitVec 64) (s : State) : State :=
  let n := v.toNat
  if off = 0x10008 then withPkg (fun p => { p with rcv := { p.rcv with size := BitVec.ofNat 32 n } }) s
  else if off = 0x20000 then writeFabId (fieldsOf n 0xBF) s
  else if off = 0x20008 then writeFabLink (fieldsOf n 0xFFFFFFFFF) s
  else if off = 0x20018 then { s with host := { s.host with bar2Base := bits n 39 30 * 2 ^ 30 } }
  else if off = 0x40100 then
    if s.xlt.busy then s else { s with xlt := { s.xlt with va := BitVec.ofNat 64 (fieldsOf n 0x00FFFFFFFFFFF000) } }
  else if off = 0x50008 then
    if s.svc.busy then s else { s with svc := { s.svc with addr := BitVec.ofNat 64 (fieldsOf n 0xFFFFFFFF80) } }
  else writeBank off n s

/-! ## Reduction groups (R62) -/

/-- Type and operation of word 2 go together (R60). -/
def redPairOk (type op : Nat) : Bool := decide (type ≤ 4) && decide (op ≤ 5) && !(decide (3 ≤ type) && decide (3 ≤ op))

/-- The group may be enabled: its pair valid, its result in this module's region 0, this module a member. -/
def redEnableOk (s : State) (x : RedGroup) (type op : Nat) : Bool :=
  let a := x.result.toNat
  redPairOk type op && paModule a == s.fab.module && paRegion a == 0 && decide (paOffset a < 2 ^ 40) &&
    x.members.getLsbD s.fab.module

/-- Word 2 of a group that is not enabled (log 31). -/
def redControl (s : State) (g v : Nat) : State :=
  let x := redGet s g
  let type := bits v 3 0
  let op := bits v 7 4
  let y := { x with timeout := BitVec.ofNat 32 (v / 2 ^ 32), op := op, type := type }
  if bit v 8 then (if redEnableOk s x type op then redPut s g { y with enable := true, seq := 0, contribs := [] } else s)
  else redPut s g y

/-- A write to a word of a group: while it is enabled only a zero enable acts, which abandons the round. -/
def writeRed (g word : Nat) (v : BitVec 64) (s : State) : State :=
  let x := redGet s g
  let n := v.toNat
  if 256 ≤ g then s
  else
    match word with
    | 0 => if x.enable then s else redPut s g { x with members := v }
    | 1 => if x.enable then s else redPut s g { x with result := BitVec.ofNat 64 (fieldsOf n 0x000FFFFFFFFFFFE0) }
    | 2 =>
      if x.enable then (if bit n 8 then s else redPut s g { x with enable := false, contribs := [] })
      else redControl s g n
    | _ => s

/-- RED_CFG_WRITE. -/
def execRedCfgWrite (group word : Nat) (v : BitVec 64) (s : State) : Out := .next (hostWrite (writeRed group word v) s)

/-! ## Contexts (03 R68, R69) -/

/-- Memory dies of a span's interleave (Table 3-1). -/
def spanMem (span first : Nat) : List Nat :=
  match span with
  | 0 => [first / 2]
  | 1 => (List.range 8).map (8 * (first / 16) + ·)
  | _ => List.range 16

/-- The first die is one that the span allows. -/
def firstOk (span first : Nat) : Bool :=
  match span with
  | 0 => decide (first < 32)
  | 1 => first == 0 || first == 16
  | 2 => first == 0
  | _ => false

/-- INTLV code that a span needs. -/
def spanCode (span : Nat) : Nat := span

/-- Every unit that R40 asks for is ready. -/
def spanReady (s : State) (span first : Nat) : Bool :=
  let r := s.pkg.ready
  ((List.range (spanDies span)).map (first + ·)).all (fun d => r.disp.getLsbD d && r.cdie.getLsbD d) &&
    (spanMem span first).all (fun m => r.mbase.getLsbD m && bits r.chan.toNat (16 * m + 15) (16 * m) == 0xFFFF)

/-- The descriptor of a context as the device reads it; none where a channel of it is not ready or a sector is not good. -/
def ctxDesc (s : State) (a : Nat) : Option (List Byte) :=
  let p := storagePlace s (ownPa s a)
  if (List.range 128).all (fun i => channelReady s (a + i)) && (List.range 4).all (fun i => sectorDev s (p / 32 + i) == 0) then
    some (memBytes s p 128)
  else none

/-- The result of a creation: the first case of R68 that holds, or 0. -/
def createResult (s : State) (ctx : Nat) (desc : Option (List Byte)) : Nat :=
  if (ctxGet s ctx).state ≠ 0 then 6
  else
    match desc with
    | none => 7
    | some bs =>
      let span := field bs 0 0
      let first := field bs 1 1
      if !zeroBytes bs 3 2 || !zeroBytes bs 127 44 then 7
      else if !firstOk span first then 1
      else if span = 2 ∧ (List.range 32).countP (fun v => (boundC s.pkg v).isSome) < 32 then 5
      else if !spanReady s span first then 2
      else if ((List.range (spanDies span)).map (first + ·)).any (fun d => (usedDies s).contains d) then 3
      else if !(spanMem span first).all (fun m => intlvCode s.svc.intlv m == spanCode span) then 4
      else 0

/-- The context that a descriptor describes (Table 3-3). -/
def ctxOf (old : Ctx) (bs : List Byte) : Ctx :=
  { state := 1, span := field bs 0 0, first := field bs 1 1
    grace := if field bs 7 4 = 0 then 20 else field bs 7 4
    ptroot := field bs 15 8, qtable := field bs 23 16, trapvec := field bs 31 24
    quota := if field bs 39 32 = 0 then 0x0008421000084210 else BitVec.ofNat 64 (fieldsOf (field bs 39 32) quotaMask)
    softrejoin := if field bs 43 40 = 0 then 65536 else field bs 43 40
    phrArea := old.phrArea, halt := { old.halt with count := 0 } }

/-- Create a context, or report why not. -/
def createCtx (ctx desc : Nat) (s : State) : State :=
  if s.host.ctxBusy then s
  else
    let bs := ctxDesc s (desc / 128 * 128)
    let r := createResult s ctx bs
    let t := { s with host := { s.host with ctxResult := r } }
    if r ≠ 0 then t else makeQueues ctx (ctxPut t ctx (ctxOf (ctxGet t ctx) (bs.getD [])))

/-- CTX_CREATE: CTX_CMD op 1. -/
def execCtxCreate (ctx desc : Nat) (s : State) : Out := .next (hostWrite (createCtx ctx desc) s)

/-- CTX_CMD_NONE: op 0 does nothing. -/
def execCtxCmdNone (s : State) : Out := .next (hostWrite (fun s => s) s)

/-- CTX_CMD_RESERVED: op 3 ends at once with result 8. -/
def execCtxCmdReserved (s : State) : Out :=
  .next (hostWrite (fun s => if s.host.ctxBusy then s else { s with host := { s.host with ctxResult := 8 } }) s)

/-! ## Registers by their offsets (R45; 01 R14, R21, R37, R45) -/

/-- The state that an event leads to. -/
def stateOf (s : State) (o : Out) : State :=
  match o with
  | .next t => t
  | _ => s

/-- CTX_CMD as a word. -/
def writeCtxCmd (n : Nat) (s : State) : Out :=
  match bits n 63 62 with
  | 0 => execCtxCmdNone s
  | 1 => execCtxCreate (bits n 52 48) (bits n 39 7 * 128) s
  | 2 => execCtxDestroy (bits n 52 48) s
  | _ => execCtxCmdReserved s

/-- SUSP_CMD as a word. -/
def writeSuspCmd (n : Nat) (s : State) : Out :=
  match bits n 63 62 with
  | 0 => .next s
  | 1 => execSuspendContext (bits n 52 48) s
  | 2 => execResumeContext (bits n 52 48) s
  | _ => execPreemptGrid (bits n 52 48) (bits n 43 32) (bits n 31 0) s

/-- XLT_CMD as a word. -/
def writeXltCmd (n : Nat) (s : State) : Out :=
  match bits n 63 62 with
  | 0 => execXltCmdNone s
  | 1 => execXltInvalidateRange (bits n 52 48) (bits n 3 0) s
  | 2 => execXltInvalidateAll (bits n 52 48) s
  | _ => execXltCmdReserved s

/-- MEM_CMD as a word. -/
def writeMemCmd (n : Nat) (s : State) : Out :=
  match bits n 63 61 with
  | 0 => .next s
  | 1 => execMemMoveBlock (bits n 55 52) (bits n 51 40) (bits n 39 36) (bits n 35 24) s
  | 2 => execMemOfflineDie (bits n 55 52) s
  | 3 => execMemOnlineDie (bits n 55 52) s
  | 4 => execMemHealLine s
  | _ => execMemCmdReserved s

/-- RCV_CTL as a word: commit, then go. -/
def writeRcvCtl (n : Nat) (s : State) : State :=
  let t := if bit n 1 then stateOf s (execRecoveryCommit s) else s
  if bit n 0 then stateOf t (execRecoveryGo t) else t

/-- A write of BAR0: a register that has rows of its own acts as they do. -/
def writeAt (off : Nat) (v : BitVec 64) (s : State) : State :=
  let n := v.toNat
  if off = 0x10010 then writeRcvCtl n s
  else if off = 0x30000 then stateOf s (writeCtxCmd n s)
  else if off = 0x30018 then stateOf s (execIntlvWrite (BitVec.ofNat 32 n) s)
  else if off = 0x30020 then stateOf s (writeSuspCmd n s)
  else if off = 0x40108 then stateOf s (writeXltCmd n s)
  else if off = 0x50000 then stateOf s (writeMemCmd n s)
  else
    match bankIndex (off / 8 * 8) 0x21000 8 1024 with
    | some i => if off % 8 = 0 then writeRed (i / 4) (i % 4) v s else s
    | none => writeReg off v s

/-- Offsets of BAR0 that recovery presents: the ready map and the mailbox (R14). -/
def presented (off : Nat) : Bool := decide (off < 0x40) || (decide (0x10000 ≤ off) && decide (off < 0x10018))

/-- REGISTER_WRITE through the active port: before the I/O die is released only the ready map and the recovery mailbox answer, of which
RCV_SIZE and RCV_CTL are writable (01 R14, R21). -/
def execRegisterWrite (off : Nat) (v : BitVec 64) (s : State) : Out :=
  .next (
    if activeReleased s then writeAt off v s
    else if inRecovery s && presented off then
      (if off = 0x10008 then writeReg off v s else if off = 0x10010 then writeRcvCtl v.toNat s else s)
    else respond .ur s)

/-- Ready map (01 Table 1-8). -/
def readReady (s : State) (off : Nat) : Nat :=
  let r := s.pkg.ready
  if off = 0x00 then r.disp.toNat * 2 ^ 32 + r.cdie.toNat
  else if off = 0x08 then r.mcache.toNat * 2 ^ 16 + r.mbase.toNat
  else if off = 0x30 then (if r.config then 2 ^ 22 else 0) + r.reduce.toNat * 2 ^ 20 + r.host.toNat * 2 ^ 18 + r.guyline.toNat
  else if off = 0x38 then r.gen.toNat
  else match bankIndex off 0x10 8 4 with
    | some j => bits r.chan.toNat (64 * j + 63) (64 * j)
    | none => 0

/-- Recovery mailbox (01 Table 1-5). -/
def readRcv (s : State) (off : Nat) : Nat :=
  let r := s.pkg.rcv
  if off = 0x10000 then r.reason * 2 ^ 8 + r.state * 2 ^ 4 + r.attempts
  else if off = 0x10008 then r.size.toNat
  else 0

/-- Word w of a reduction group (Table 2-2). -/
def readRed (s : State) (g w : Nat) : Nat :=
  let x := redGet s g
  match w with
  | 0 => x.members.toNat
  | 1 => x.result.toNat
  | 2 => x.timeout.toNat * 2 ^ 32 + (if x.enable then 2 ^ 8 else 0) + x.op * 2 ^ 4 + x.type
  | _ => x.discards.toNat * 2 ^ 32 + x.seq.toNat

/-- A result register: busy and result. -/
def busyResult (busy : Bool) (result : Nat) : Nat := (if busy then 2 ^ 8 else 0) + result

/-- CTX_STAT. -/
def readCtxStat (s : State) : Nat := (List.range 32).foldl (fun n c => n + (ctxGet s c).state * 2 ^ (2 * c)) 0

/-- A word of HALT_LOG (04 Table 4-2). -/
def readHalt (h : HaltLog) (w : Nat) : Nat :=
  if w = 0 then h.cause * 2 ^ 56 + h.count * 2 ^ 32 + h.pc.toNat else h.handle.toNat

/-- The banks of registers. -/
def readBank (s : State) (off : Nat) : Nat :=
  match bankIndex off 0x20100 8 64, bankIndex off 0x21000 8 1024, bankIndex off 0x30100 8 32, bankIndex off 0x30200 8 64,
      bankIndex off 0x40000 8 32, bankIndex off 0x50100 8 16 with
  | some m, _, _, _, _, _ => (Tab.get 0 s.fab.route m).toNat
  | _, some i, _, _, _, _ => readRed s (i / 4) (i % 4)
  | _, _, some c, _, _, _ => (ctxGet s c).phrArea.toNat
  | _, _, _, some i, _, _ => readHalt (ctxGet s (i / 2)).halt (i % 2)
  | _, _, _, _, some c, _ => if (ctxGet s c).state = 0 then 0 else (ctxGet s c).quota.toNat
  | _, _, _, _, _, some m => Tab.get 0 s.svc.lend m
  | _, _, _, _, _, _ => 0

/-- What a read of BAR0 returns outside recovery: zero for an offset without a register, a reserved or a write-only
field (R45; 00 R8). -/
def readAt (s : State) (off : Nat) : Nat :=
  if off < 0x40 then readReady s off
  else if off < 0x20000 then readRcv s off
  else if off = 0x20000 then (if s.fab.valid then 2 ^ 7 else 0) + s.fab.module
  else if off = 0x20008 then s.fab.err.toNat * 2 ^ 18 + s.fab.enable.toNat
  else if off = 0x20018 then s.host.bar2Base
  else if off = 0x30008 then busyResult s.host.ctxBusy s.host.ctxResult
  else if off = 0x30010 then readCtxStat s
  else if off = 0x30018 then s.svc.intlv.toNat
  else if off = 0x30028 then busyResult s.host.suspBusy s.host.suspResult
  else if off = 0x40100 then s.xlt.va.toNat
  else if off = 0x40110 then busyResult s.xlt.busy s.xlt.result
  else if off = 0x50008 then s.svc.addr.toNat
  else if off = 0x50010 then s.svc.moved.toNat * 2 ^ 32 + busyResult s.svc.busy s.svc.result
  else if off = 0x50018 then s.svc.degraded.toNat * 2 ^ 32 + s.svc.offline.toNat * 2 ^ 16 + movingDies s
  else readBank s off

/-- A read of BAR0 through a port (R45, R48; 01 R14; log 41): the standby port shows the ready map, the mailbox and FAB_CTL,
which reads zero; before the I/O die is released only recovery shows the ready map and the mailbox. -/
def readRegister (port off : Nat) (s : State) : State :=
  let few := if off < 0x40 then readReady s off else if off < 0x20000 then readRcv s off else 0
  if !s.host.trained.getLsbD port then s
  else if port ≠ s.host.active then respond (.register (BitVec.ofNat 64 few)) s
  else if activeReleased s then respond (.register (BitVec.ofNat 64 (readAt s off))) s
  else if inRecovery s && presented off then
    respond (.register (BitVec.ofNat 64 few)) s
  else respond .ur s

end Sys2Proof.Machine
end

