-- ==== Sys2Proof/Machine/Rejoin.lean ====
section
/-!
DEFINITION. Rejoin and recall as events, the rejoin limits, and keys sent to other modules (06 R155, R166-R168; 02 R56).
-/

namespace Sys2Proof.Machine

open Sys2Proof

/-! ## Traps met at a turn (10 R250) -/

/-- A trap was taken between two states of the agent. -/
def tookTrap (s t : State) : Bool :=
  (t.w.trap.on && !s.w.trap.on) || (t.w.status == .halted && s.w.status != .halted) || t.w.laneFault

/-- A fault met while earlier instructions are open waits until they are not: the wave stops issuing, and the oldest
fault is taken (10 R250). -/
def heldTrap (s t : State) : State := if !(openOps s).isEmpty && tookTrap s t then hold s .interlock else t

/-- Reconvergence as a step of its own (06 R155). -/
def reconvergeStep (s : State) : State :=
  match reconverge s with
  | .ok t => t
  | .error t => heldTrap s (takeTrap t s)

/-! ## Rejoin (R155, R166) -/

/-- The join entry on top of the wave's stack, with the wave at its address and lanes ejected under it. -/
def atJoin (s : State) : Bool :=
  curRpc s.w == some s.w.pc && !(ejectedUnderTop s.w).isEmpty && (s.w.status == .ready || s.w.status == .waiting .rejoin)

/-- LANE_REJOIN: the wave at the join address collects the lanes that wait there and pops the join. -/
def execLaneRejoin (s : State) : Out :=
  .next (
    if atJoin s && (ejectedUnderTop s.w).all (fun e => laneArrived e && laneQuiet s e) && areaFree s then reconvergeStep (wake s) else s)

/-! ## Recall (R159, R160, R168) -/

/-- The next word of a lane, where one is at hand. -/
def laneWord (s : State) (e : EjLane) : Option Word :=
  let v := laneView s e
  match running v with
  | none => none
  | some c =>
    match wordAt v c with
    | .ok w => some w
    | .error _ => none

/-- What the next word of a lane does to it. -/
def laneNext (s : State) (e : EjLane) : LaneClass :=
  match laneWord s e with
  | none => .runs
  | some w => laneClass (regUse (laneView s e) (instrOf w)) (instrOf w) (8 * e.live)

/-- LANE_RECALL: an ejected lane whose next instruction recalls it stops and enters the stack. -/
def execLaneRecall (l : Nat) (s : State) : Out :=
  .next (match s.w.ejected.find? (fun e => e.lane == l) with
    | none => s
    | some e =>
      if !e.started || e.stuck || e.pc == e.rpc || !laneQuiet s e || !areaReady s then s
      else
        match laneNext s e with
        | .recalls => recallLane e s
        | .window r => recallWindow e r s
        | .runs => s)

/-! ## Rejoin limits (R167) -/

/-- REJOIN_SOFT_LIMIT: the wave leaves the active set and stays pending until its lanes are collected. -/
def execRejoinSoftLimit (s : State) : Out :=
  .next (
    if atJoin s && !s.w.trap.on then
      enterPending s.g.die s.g.core (s.w.idx % 4) s.w.handle { s with w := { s.w with rejoinSoft := true } }
    else s)

/-- The lanes ejected under the join that have not reached its address. -/
def lateLanes (s : State) : List EjLane := (ejectedUnderTop s.w).filter (fun e => !laneArrived e)

/-- REJOIN_HARD_LIMIT: every lane still on its way is recalled, once nothing of it is in flight. -/
def execRejoinHardLimit (s : State) : Out :=
  .next (
    if atJoin s && !s.w.trap.on && !(lateLanes s).isEmpty && (lateLanes s).all (fun e => !e.stuck && laneQuiet s e) && areaReady s then
      match recallUnder (totalDepth s.w - 1) (lateLanes s) s with
      | .ok t => { t with w := { t.w with rejoinSoft := false } }
      | .error t => recallFault (lateLanes s) t s
    else s)

/-! ## Keys sent to other modules (02 R56) -/

/-- The module of a wave name can be reached: FAB_ID is valid, and a link of its route carries traffic (R52, R55). -/
def nameReached (s : State) (name : BitVec 64) : Bool := s.fab.valid && routeLinks s (nameModule name) != 0

/-- REMOTE_KSEND_DELIVER: once the members that the sent key held are performed at fabric scope the delivery is made and
acknowledged over the links of the recipient's module, and the KSEND is complete. -/
def execRemoteKsendDeliver (op : Nat) (s : State) : Out :=
  .next (match findOp s op with
    | none => s
    | some o =>
      match o.kind with
      | .ksend name _ _ _ true =>
        if waitsAt s 5 o && nameReached s name then completeOp o s else s
      | _ => s)

/-- KSEND_ACK_TIMEOUT: a delivery made and not acknowledged within 1 ms makes the sender's next FENCE at fabric scope raise NOROUTE
with cause 3. -/
def execKsendAckTimeout (op : Nat) (s : State) : Out :=
  .next (match findOp s op with
    | none => s
    | some o =>
      match o.kind with
      | .ksend _ _ _ _ true =>
        if waitsAt s 5 o then modWave o.owner (fun w => { w with ksendOverdue := true }) s else s
      | _ => s)

end Sys2Proof.Machine
end

