-- ==== Sys2Proof/Machine/Matrix.lean ====
section
/-!
DEFINITION. The matrix engine: format blocks, MMA and MMAB, XSCALE, XCVT, XZERO, the moves between tiles and vector
registers, loads and stores of tiles, streamed operands and beats (11 R265-R288; 12 R289-R299; 16 R410-R424).
-/

namespace Sys2Proof.Machine

open Sys2Proof

/-! ## Elements (11 R265-R271, Table 11-9) -/

/-- Bits of an element of an operand format code. -/
def opndBits (code : Nat) : Nat :=
  match code with
  | 5 => 16 | 6 => 16
  | 8 => 4 | 9 => 4
  | 10 => 1
  | _ => 8

/-- Entry i of a codebook of BF16 values (R270). -/
def codebook (cb : List Word) (i : Nat) : Num.Val :=
  Num.bf16.decode ((cb.getD (i / 2) 0).toNat / 2 ^ (16 * (i % 2)) % 2 ^ 16)

/-- The value of an element of an operand. -/
def opndVal (code : Nat) (cb : List Word) (x : Nat) : Num.Val :=
  match code with
  | 0 => Num.Val.ofInt (sext x 8)
  | 2 => Num.e4m3.decode x
  | 3 => Num.e5m2.decode x
  | 4 => Num.m8Decode x
  | 5 => Num.f16.decode x
  | 6 => Num.bf16.decode x
  | 9 => codebook cb x
  | _ => Num.Val.ofInt x

/-- The value of an integer element. -/
def opndInt (code x : Nat) : Int := if code = 0 then sext x 8 else x

/-- Element k of a row of 128 bytes. -/
def rowElem (code row k : Nat) : Nat := elemAt (opndBits code) row k

/-- Row r of a tile as a number of 1,024 bits. -/
def tileRow (w : Wave) (x r : Nat) : Nat :=
  (List.range 32).foldl (fun n c => n + (xget w x r c).toNat * 2 ^ (32 * c)) 0

/-! ## Exact sums with special values (11 R276, R285) -/

/-- The value is an infinity of a sign. -/
def isInf (neg : Bool) : Num.Val → Bool
  | .inf n => n == neg
  | _ => false

/-- The exact sum of values: NaN absorbs, and infinities of both signs set INV. -/
def sumVals (xs : List Num.Val) : Num.Val × Word :=
  if xs.any isNanVal then (.nan, 0)
  else if xs.any (isInf false) && xs.any (isInf true) then (.nan, Num.fInv)
  else
    match xs with
    | [] => (.fin false 0 0, 0)
    | y :: ys => (ys.foldl (fun a b => (Num.add 0 a b).1) y, 0)

/-- The exact sum of products; an Inf × 0 product sets INV whatever else it holds. -/
def sumProducts (ps : List (Num.Val × Word)) : Num.Val × Word :=
  let s := sumVals (ps.map (·.1))
  (s.1, ps.foldl (fun f p => f ||| p.2) s.2)

/-- An exact product of three factors. -/
def product3 (a b c : Num.Val) : Num.Val × Word :=
  let xs := [a, b, c]
  let inv := xs.any (fun x => isInf false x || isInf true x) && xs.any (·.isZero)
  (if inv then .nan else (Num.mul (Num.mul a b).1 c).1, if inv then Num.fInv else 0)

/-- round_rne to F32: value and flags; subnormals flush when fz is set (R274). -/
def rne (fz : Bool) (v : Num.Val) : Num.Val × Word :=
  let r := Num.round Num.f32 0 fz .arith v
  (Num.f32.decode r.1, r.2)

/-- Chunks of 16 of k elements: first and past the last. -/
def chunks (k : Nat) : List (Nat × Nat) := (List.range ((k + 15) / 16)).map (fun q => (16 * q, min (16 * q + 16) k))

/-- f for lo up to hi. -/
def between {α : Type} (lo hi : Nat) (f : Nat → α) : List α := (List.range (hi - lo)).map (fun i => f (lo + i))

/-! ## Format blocks (11 R280-R284, Tables 11-8 to 11-10) -/

/-- The block that 64 bytes hold. -/
def blockOf (bs : List Byte) : FmtBlk :=
  { afmt := field bs 0 0 % 16, bfmt := field bs 1 1 % 16, acc := field bs 2 2 % 4, flags := field bs 3 3
    la := 16 * 2 ^ (field bs 4 4 % 4), lb := 16 * 2 ^ (field bs 5 5 % 4)
    asf := field bs 4 4 / 4 % 4, bsf := field bs 5 5 / 4 % 4
    k := field bs 7 6, cbase := field bs 8 8
    ascale := field bs 15 12, acount := field bs 17 16, bcount := field bs 19 18, bscale := field bs 23 20
    cscale := field bs 27 24, czp := field bs 31 28 }

/-- The format code is assigned. -/
def fmtAssigned (c : Nat) : Bool := decide (c ≤ 6) || decide (8 ≤ c ∧ c ≤ 10)

/-- Kmax and the accumulators of a pair of Table 11-9. -/
def pairOf (a b : Nat) : Option (Nat × List Nat) :=
  let f8 (c : Nat) : Bool := decide (2 ≤ c) && decide (c ≤ 4)
  if f8 a && (f8 b || b == 8 || b == 9) then some (128, [0, 2, 3])
  else if a = 5 ∧ b = 5 then some (64, [0, 2])
  else if a = 6 ∧ (b = 6 ∨ b = 8 ∨ b = 9) then some (64, [0, 3])
  else if a ≤ 1 ∧ b ≤ 1 then some (128, [1])
  else if a = 0 ∧ b = 8 then some (128, [1])
  else if a = 8 ∧ b = 8 then some (256, [1])
  else if a = 10 ∧ b = 10 then some (1024, [1])
  else none

/-- Bytes of a scale (R280). -/
def scaleSize (f : Nat) : Nat := if f = 1 then 2 else 1

/-- Number of scales of a side. -/
def scaleCount (k l : Nat) : Nat := (k + l - 1) / l

/-- A scales, B scales, zero points (bits of flags). -/
def FmtBlk.aScaled (b : FmtBlk) : Bool := bit b.flags 0
def FmtBlk.bScaled (b : FmtBlk) : Bool := bit b.flags 1
def FmtBlk.sums (b : FmtBlk) : Bool := bit b.flags 2

/-- A byte or bit that must be zero is not, or a reserved code stands (detail 2). -/
def blockReserved (bs : List Byte) (b : FmtBlk) : Bool :=
  field bs 0 0 / 16 != 0 || field bs 1 1 / 16 != 0 || field bs 2 2 / 4 != 0 || field bs 3 3 / 8 != 0 ||
    field bs 4 4 / 16 != 0 || field bs 5 5 / 16 != 0 || !zeroBytes bs 11 9 || !zeroBytes bs 63 32 ||
    b.ascale / 2 ^ 19 != 0 || b.bscale / 2 ^ 19 != 0 || !fmtAssigned b.afmt || !fmtAssigned b.bfmt ||
    b.asf == 3 || b.bsf == 3 || (b.bfmt != 9 && b.cbase != 0)

/-- The pair or its accumulator is not one the instruction takes (detail 1). -/
def pairBad (bin : Bool) (b : FmtBlk) : Bool :=
  fmtAssigned b.afmt && fmtAssigned b.bfmt && match pairOf b.afmt b.bfmt with
    | none => true
    | some p => !p.2.contains b.acc || bin != (b.afmt == 10)

/-- K is zero or above Kmax (detail 3). -/
def kBad (b : FmtBlk) : Bool :=
  b.k == 0 || match pairOf b.afmt b.bfmt with
    | none => false
    | some p => decide (p.1 < b.k)

/-- The lowest detail of Table 11-10 that the block of an MMA (bin false) or MMAB meets. -/
def blockDefect (bin : Bool) (bs : List Byte) (b : FmtBlk) : Option Nat :=
  if (b.aScaled && decide (b.acount < scaleCount b.k b.la)) || (b.bScaled && decide (b.bcount < scaleCount b.k b.lb)) then some 0
  else if pairBad bin b then some 1
  else if blockReserved bs b then some 2
  else if kBad b then some 3
  else if b.bfmt = 9 ∧ ¬(b.cbase % 8 = 0 ∧ b.cbase ≤ 40) then some 4
  else if b.ascale % scaleSize b.asf != 0 || b.bscale % scaleSize b.bsf != 0 ||
      b.cscale % 4 != 0 || b.czp % 4 != 0 then some 5
  else if b.acc = 1 ∧ (b.aScaled || b.bScaled) then some 6
  else none

/-- Bytes of local memory as the wave reads them at issue (16 R413). -/
def localBytes (s : State) (off n : Nat) : List Byte :=
  let g := (ownView s).g
  (List.range n).map (fun i => locByte g (off + i))

/-- XLATE cause 6 for n bytes at a local offset that reach beyond the group's local size. -/
def insideLocal (s : State) (off n : Nat) : Except Trap Unit :=
  check (decide (off + n ≤ s.g.desc.lsize)) { cause := causeXlate, detail := 6, addr := off }

/-- Offsets of the scales that an MMA reads, A rows first (R283, R284). -/
def scaleOffsets (s : State) (b : FmtBlk) : List (Nat × Nat) :=
  let na := scaleCount b.k b.la
  let nb := scaleCount b.k b.lb
  (if b.aScaled then (lanesOf (activeMask s)).flatMap (fun r =>
      (List.range na).map (fun j => (b.ascale + (r * b.acount + j) * scaleSize b.asf, scaleSize b.asf))) else []) ++
    (if b.bScaled then (List.range 32).flatMap (fun c =>
      (List.range nb).map (fun j => (b.bscale + (c * b.bcount + j) * scaleSize b.bsf, scaleSize b.bsf))) else [])

/-- Read and check the format block of an MMA or MMAB (R283). -/
def mmaBlock (s : State) (bin : Bool) (f : BitVec 5) : Except Trap FmtBlk := do
  let off := pairOffset s f
  check (off % 64 == 0) (trapOf causeFmtblk 5)
  insideLocal s off 64
  let bs := localBytes s off 64
  let b := blockOf bs
  match blockDefect bin bs b with
  | some d => .error (trapOf causeFmtblk d)
  | none =>
    (scaleOffsets s b).forM (fun x => insideLocal s x.1 x.2)
    .ok b

/-- The value of a scale (R280). -/
def scaleVal (f x : Nat) : Num.Val :=
  match f with
  | 0 => if x = 255 then .nan else .fin false 1 ((x : Int) - 127)
  | 1 => Num.bf16.decode x
  | _ => Num.m8Decode x

/-- The scales of one side as read at issue, keyed 64 × row + index. -/
def readScales (s : State) (rows : List Nat) (base count size n : Nat) : Tab Nat :=
  Tab.putAll 0 [] (rows.flatMap (fun r => (List.range n).map (fun j =>
    (64 * r + j, numOf (localBytes s (base + (r * count + j) * size) size)))))

/-! ## One element (R285-R287, 12 R298) -/

/-- The accumulator element as a value. -/
def accVal (acc : Nat) (fz : Bool) (x : Word) : Num.Val :=
  match acc with
  | 2 => Num.f16.decode (x.toNat % 2 ^ 16)
  | 3 => Num.bf16.decode (x.toNat % 2 ^ 16)
  | _ => Num.inF32 fz x.toNat

/-- The bits of an accumulator element rounded, and flags: F16 and BF16 saturate (R287). -/
def accRound (acc rm : Nat) (fz : Bool) (v : Num.Val) : Nat × Word :=
  match acc with
  | 2 => Num.round Num.f16 rm false .saturate v
  | 3 => Num.round Num.bf16 rm false .saturate v
  | _ => Num.round Num.f32 rm fz .arith v

/-- A clamped I32 and SAT when it was clamped. -/
def clampI32 (x : Int) : Word × Word := let r := fitInt 32 true true x; (BitVec.ofNat 32 r.1, r.2)

/-- The flush that holds for the job's sums: with an F32 accumulator only. -/
def MmaJob.flush (j : MmaJob) : Bool := j.fz && j.fb.acc == 0

/-- The scale of a chunk from lo on, of row or column i. -/
def chunkScale (t : Tab Nat) (f len i lo : Nat) : Num.Val := scaleVal f (Tab.get 0 t (64 * i + lo / len))

/-- t of R285 for a chunk of row r and column c. -/
def chunkTerm (j : MmaJob) (ra rb r c : Nat) (lo hi : Nat) : Num.Val × Word :=
  let s := sumProducts (between lo hi (fun k =>
    Num.mul (opndVal j.fb.afmt j.cb (rowElem j.fb.afmt ra k)) (opndVal j.fb.bfmt j.cb (rowElem j.fb.bfmt rb k))))
  let t := rne j.flush s.1
  if j.fb.aScaled || j.fb.bScaled then
    let one : Num.Val := .fin false 1 0
    let p := product3 t.1 (if j.fb.aScaled then chunkScale j.sa j.fb.asf j.fb.la r lo else one)
      (if j.fb.bScaled then chunkScale j.sb j.fb.bsf j.fb.lb c lo else one)
    let u := rne j.flush p.1
    (u.1, s.2 ||| t.2 ||| p.2 ||| u.2)
  else (t.1, s.2 ||| t.2)

/-- mma_float of R285: the new element and its flags. -/
def mmaFloat (j : MmaJob) (ra rb r c : Nat) (old : Word) : Word × Word :=
  (chunks j.fb.k).foldl (fun x q =>
    let t := chunkTerm j ra rb r c q.1 q.2
    let a := Num.add j.rm (accVal j.fb.acc j.flush x.1) t.1
    let y := accRound j.fb.acc j.rm j.flush a.1
    (BitVec.ofNat 32 y.1, x.2 ||| t.2 ||| a.2 ||| y.2)) (old, 0)

/-- The exact sum of products of integer elements (R286). -/
def intDot (b : FmtBlk) (ra rb : Nat) : Int :=
  (List.range b.k).foldl (fun n k =>
    n + opndInt b.afmt (rowElem b.afmt ra k) * opndInt b.bfmt (rowElem b.bfmt rb k)) 0

/-- s of mmab (12 R298). -/
def binDot (xor : Bool) (k ra rb : Nat) : Int :=
  if xor then (k : Int) - 2 * (popcount (Nat.xor ra rb) k : Int) else (popcount (Nat.land ra rb) k : Int)

/-- One element of the accumulator after the instruction. -/
def mmaElem (j : MmaJob) (ra rb r c : Nat) (old : Word) : Word × Word :=
  match j.bin with
  | some xor => clampI32 (sext old.toNat 32 + binDot xor j.fb.k ra rb)
  | none => if j.fb.acc = 1 then clampI32 (sext old.toNat 32 + intDot j.fb ra rb) else mmaFloat j ra rb r c old

/-- rowsum_update of 12 R296. -/
def rowSum (j : MmaJob) (ra r : Nat) (old : Word) : Word × Word :=
  if j.fb.acc = 1 then
    clampI32 (sext old.toNat 32 + match j.bin with
      | some _ => (popcount ra j.fb.k : Int)
      | none => (List.range j.fb.k).foldl (fun n k => n + opndInt j.fb.afmt (rowElem j.fb.afmt ra k)) 0)
  else
    let r := (chunks j.fb.k).foldl (fun x q =>
      let s := sumVals (between q.1 q.2 (fun k => opndVal j.fb.afmt j.cb (rowElem j.fb.afmt ra k)))
      let t := rne false s.1
      let p : Num.Val × Word := if j.fb.aScaled then Num.mul t.1 (chunkScale j.sa j.fb.asf j.fb.la r q.1) else (t.1, 0)
      let u := if j.fb.aScaled then rne false p.1 else (t.1, 0)
      let a := Num.add 0 x.1 u.1
      let y := rne false a.1
      (y.1, x.2 ||| s.2 ||| t.2 ||| p.2 ||| u.2 ||| a.2 ||| y.2)) (Num.f32.decode old.toNat, (0 : Word))
    (BitVec.ofNat 32 (Num.round Num.f32 0 false .arith r.1).1, r.2)

/-! ## Beats (12 R290, R295) -/

/-- What one row becomes: its words, its side element, and its flags. -/
structure RowOut where
  words : List Word
  side : Option Word
  flags : Word

/-- Beats whose mask word is not zero. -/
def beatsOf (m : LaneMask) : List Nat := (List.range 3).filter (fun b => maskWord m b != 0)

/-- The beats of an instruction that gives every row of act an outcome, with the flags of rows that are no helper's. -/
def makeBeats (mask act help : LaneMask) (f : Nat → RowOut) : List (Nat × Beat) × Word :=
  let rows := (lanesOf act).map (fun r => (r, f r))
  let beat (b : Nat) : Beat :=
    let here := rows.filter (fun x => x.1 / 32 == b)
    { words := here.flatMap (fun x => x.2.words.mapIdx (fun c q => (32 * x.1 + c, q)))
      sides := here.filterMap (fun x => x.2.side.map (fun q => (x.1, q))) }
  ((beatsOf mask).map (fun b => (b, beat b)),
    rows.foldl (fun g x => if lane help x.1 then g else g ||| x.2.flags) 0)

/-- Issue matrix work: its rows are written beat by beat, and its flag clears with the last (R290). -/
def issueMatrix (s : State) (u : Use) (x : Nat) (r : List (Nat × Beat) × Word) : State :=
  advance (issueOp s
    { kind := .matrix x r.1 r.2, produce := 0, consume := 0, waits := [], scope := 0, flag := assignedFlag s,
      rd := u.rd, wr := u.wr, member := false })

/-- What each row of an MMA or MMAB becomes, from its operand rows. -/
def mmaBeats (w : Wave) (j : MmaJob) (ra rb : Nat → Nat) : List (Nat × Beat) × Word :=
  makeBeats j.mask j.act j.help (fun r =>
    let es := (List.range 32).map (fun c => mmaElem j (ra r) (rb c) r c (xget w j.x r c))
    let sd := rowSum j (ra r) r (sideGet w j.x r)
    { words := es.map (·.1), side := if j.fb.sums then some sd.1 else none
      flags := es.foldl (fun g e => g ||| e.2) (if j.fb.sums then sd.2 else 0) })

/-- The rows of A and the columns of B of a job, from its tiles or from the lines fetched. -/
def rowsA (w : Wave) (j : MmaJob) (got : Tab Nat) (r : Nat) : Nat :=
  match j.a with
  | some x => tileRow w x r
  | none => Tab.get 0 got r

def rowsB (w : Wave) (j : MmaJob) (got : Tab Nat) (c : Nat) : Nat :=
  match j.b with
  | some x => tileRow w x c
  | none => Tab.get 0 got (96 + c)

/-! ## MMA and MMAB (16 R416, R417) -/

/-- The tile that a source names. -/
def srcTile : XSrc → Option Nat
  | .tile x => some x.toNat
  | _ => none

/-- The tiles that an MMA names are held. -/
def mmaHeld (s : State) (x : BitVec 4) (a b : XSrc) : Bool :=
  xHeld s x.toNat && ((srcTile a).toList ++ (srcTile b).toList).all (xHeld s)

/-- What an MMA captures at issue. -/
def mmaJob (s : State) (bin : Option Bool) (x : BitVec 4) (a b : XSrc) (fb : FmtBlk) : MmaJob :=
  { x := x.toNat, bin := bin, fb := fb, rm := rnd s, fz := flush s
    cb := if fb.bfmt = 9 then (List.range 8).map (fun i => sget s (fb.cbase + i)) else []
    sa := if fb.aScaled then readScales s (lanesOf (activeMask s)) fb.ascale fb.acount (scaleSize fb.asf) (scaleCount fb.k fb.la) else []
    sb := if fb.bScaled then readScales s (List.range 32) fb.bscale fb.bcount (scaleSize fb.bsf) (scaleCount fb.k fb.lb) else []
    mask := em s, act := activeMask s, help := helperMask s, a := srcTile a, b := srcTile b }

/-- The first line of a streamed source (R411). -/
def streamBase (s : State) (b : BitVec 2) (f : BitVec 5) : Nat :=
  alignDown (((baseOf s b).toNat + (sget s (2 * f.toNat + 1)).toNat) % 2 ^ 64) 128

/-- Bytes of a line that hold elements below K (R294). -/
def usedBytes (code k : Nat) : Nat := (k * opndBits code + 7) / 8

/-- The lines of a streamed source: a key for each, with its address translated. -/
def streamLines (s : State) (src : XSrc) (f : BitVec 5) (n : Nat) (keys : List (Nat × Nat)) :
    List (Nat × Nat × Except LFault (List Nat)) :=
  match src with
  | .stream b => keys.map (fun k =>
      let va := (streamBase s b f + 128 * k.2) % 2 ^ 64
      (k.1, va, accessPhys s .read va n))
  | _ => []

/-- The lines of a streamed MMA: A of active and helper rows, then all of B, unless no row is active (12 R293). -/
def mmaLines (s : State) (a b : XSrc) (f : BitVec 5) (fb : FmtBlk) : List (Nat × Nat × Except LFault (List Nat)) :=
  if activeMask s = 0 then []
  else
    streamLines s a f (usedBytes fb.afmt fb.k) ((lanesOf (activeMask s)).map (fun r => (r, r))) ++
      streamLines s b f (usedBytes fb.bfmt fb.k) ((List.range 32).map (fun c => (96 + c, c)))

/-- Lanes that a fault of a line concerns: its row's, or for a line of B every active non-helper one (04 Table 4-10). -/
def lineLanes (real : LaneMask) (key : Nat) : List Nat :=
  if key < 96 then (if lane real key then [key] else []) else lanesOf real

/-- The faults of lines, lane by lane (log 34). -/
def lineFaults (real : LaneMask) (xs : List (Nat × LFault)) : List (Nat × LFault) :=
  xs.flatMap (fun x => (lineLanes real x.1).map (fun l => (l, x.2)))

/-- The translation faults of lines. -/
def transFaults (ls : List (Nat × Nat × Except LFault (List Nat))) : List (Nat × LFault) :=
  ls.filterMap (fun x => match x.2.2 with
    | .error f => some (x.1, f)
    | .ok _ => none)

/-- The lines to be fetched: a helper row's line that would fault is not, and reads zero (05 R132). -/
def linesToFetch (ls : List (Nat × Nat × Except LFault (List Nat))) : List StreamLine :=
  ls.filterMap (fun x => match x.2.2 with
    | .ok ps => some { key := x.1, va := x.2.1 % 2 ^ 56, places := ps }
    | .error _ => none)

/-- Issue of a streamed MMA: strong, its key consumed and joined; translation faults are precise (R294). -/
def issueStream (s : State) (u : Use) (j : MmaJob) (a b : XSrc) (f : BitVec 5) (k : Nat) : Res := do
  let ids ← consumeAt s k
  let ls := mmaLines s a b f j.fb
  match lanesTrap (lineFaults (nonHelperMask s) (transFaults ls)) with
  | some t => .error t
  | none =>
    let todo := linesToFetch ls
    .ok (advance (issueOp (installAll s (todo.map (·.va)) 128)
      { kind := .stream { job := j, die := s.g.die, todo := todo, got := [], held := [], bad := [] }
        produce := k, consume := k, waits := ids, scope := scope s, strong := true, flag := assignedFlag s
        rd := u.rd, wr := u.wr, member := nonHelperMask s != 0
        uncached := uncachedLines s (todo.map (·.va)) 128, cls := lineClasses s (todo.map (·.va)) 128
        accs := todo.map (fun l => { lane := l.key, va := l.va, bytes := l.places }) }))

/-- The source is streamed. -/
def isStream (a : XSrc) : Bool := streamed a

/-- MMA (bin none) and MMAB (16 R414, R417). -/
def mmaExec (bin : Option Bool) (x : BitVec 4) (a b : XSrc) (f : BitVec 5) (k : BitVec 4) (u : Use) (s : State) : Out :=
  if em s = 0 then .next (advance s)
  else commit s (do
    check (a.assigned && b.assigned && mmaKeyOk a b k) (trapOf causeIllop 1)
    check (mmaHeld s x a b) (trapOf causeIllopnd 2)
    let fb ← mmaBlock s bin.isSome f
    check ((fb.acc == 1 || roundingOk s) && (!(isStream a || isStream b) || decide (scope s ≤ 5))) (trapOf causeIllopnd 4)
    let j := mmaJob s bin x a b fb
    if isStream a || isStream b then issueStream s u j a b f k.toNat
    else .ok (issueMatrix s u x.toNat (mmaBeats s.w j (rowsA s.w j []) (rowsB s.w j []))))

/-- MMA. -/
def execMma (x : BitVec 4) (a b : XSrc) (f : BitVec 5) (k : BitVec 4) (s : State) : Out :=
  mmaExec none x a b f k (regUse s (.mma x a b f k)) s

/-- MMAB.and. -/
def execMmabAnd (x : BitVec 4) (a b : XSrc) (f : BitVec 5) (k : BitVec 4) (s : State) : Out :=
  mmaExec (some false) x a b f k (regUse s (.mmabAnd x a b f k)) s

/-- MMAB.xor. -/
def execMmabXor (x : BitVec 4) (a b : XSrc) (f : BitVec 5) (k : BitVec 4) (s : State) : Out :=
  mmaExec (some true) x a b f k (regUse s (.mmabXor x a b f k)) s

/-! ## XSCALE (12 R297; 16 R418) -/

/-- The block that XSCALE reads, and its checks. -/
def scaleBlock (s : State) (f : BitVec 5) : Except Trap FmtBlk := do
  let off := pairOffset s f
  let bs := localBytes s off 64
  let b := blockOf bs
  check (field bs 2 2 / 4 == 0 && field bs 3 3 / 8 == 0) (trapOf causeFmtblk 2)
  check (off % 64 == 0 && b.cscale % 4 == 0 && b.czp % 4 == 0) (trapOf causeFmtblk 5)
  insideLocal s off 64
  insideLocal s b.cscale 128
  insideLocal s b.czp 128
  .ok b

/-- xscale(r, c): the F32 bits and flags, from the accumulator, side element, scale and zero point as they stand. -/
def scaleElem (b : FmtBlk) (old side scale zp : Word) : Word × Word :=
  let v : Num.Val × Word :=
    if b.acc = 1 then
      (Num.Val.ofInt (if b.sums then sext old.toNat 32 - sext zp.toNat 32 * sext side.toNat 32 else sext old.toNat 32), 0)
    else if b.sums then
      let p := Num.fma 0 (Num.f32.decode zp.toNat).neg (Num.f32.decode side.toNat) (accVal b.acc false old)
      let t := rne false p.1
      (t.1, p.2 ||| t.2)
    else (accVal b.acc false old, 0)
  let q := Num.mul v.1 (Num.f32.decode scale.toNat)
  let y := Num.round Num.f32 0 false .arith q.1
  (BitVec.ofNat 32 y.1, v.2 ||| q.2 ||| y.2)

/-- XSCALE. -/
def execXscale (x : BitVec 4) (f : BitVec 5) (s : State) : Out :=
  if em s = 0 then .next (advance s)
  else commit s (do
    check (xHeld s x.toNat) (trapOf causeIllopnd 2)
    let b ← scaleBlock s f
    let word (base c : Nat) : Word := BitVec.ofNat 32 (numOf (localBytes s (base + 4 * c) 4))
    let out (r : Nat) : RowOut :=
      let es := (List.range 32).map (fun c =>
        scaleElem b (xget s.w x.toNat r c) (sideGet s.w x.toNat r) (word b.cscale c) (word b.czp c))
      { words := es.map (·.1), side := none, flags := es.foldl (fun g e => g ||| e.2) 0 }
    .ok (issueMatrix s (regUse s (.xscale x f)) x.toNat (makeBeats (em s) (activeMask s) (helperMask s) out)))

/-! ## XZERO and XCVT (16 R419, R420) -/

/-- XZERO: rows and side elements of active and helper lanes become zero. -/
def execXzero (x : BitVec 4) (s : State) : Out :=
  run s (do
    check (xHeld s x.toNat) (trapOf causeIllopnd 2)
    let rows := lanesOf (activeMask s)
    let w := xputAll s.w x.toNat (rows.flatMap (fun r => (List.range 32).map (fun c => (32 * r + c, (0 : Word)))))
    .ok { s with w := sidePutAll w x.toNat (rows.map (fun r => (r, (0 : Word)))) })

/-- The element type of an XCVT destination code (Table 16-3). -/
def xcvtType (fmt : Nat) : Nat :=
  match fmt with
  | 0 => 0x9 | 1 => 0x8 | 2 => 0xC | 3 => 0xD | 4 => 0xE | 5 => 0xA | 6 => 0xB | _ => 0xF

/-- The words of a row after XCVT: the run of converted elements at position q over the old words, and flags. -/
def xcvtRow (s : State) (src dst q : Nat) (row old : Nat → Word) : RowOut :=
  let es := (List.range 32).map (fun c => Num.convert (rnd s) (sat s) (flush s) src dst (row c).toNat)
  let w := elemWidth dst
  let packed := packElems w (fun i => (es.getD i (0, 0)).1) 0 32
  { words := (List.range 32).map (fun c =>
      if w * q ≤ c ∧ c < w * q + w then BitVec.ofNat 32 (packed / 2 ^ (32 * (c - w * q))) else old c)
    side := none
    flags := es.foldl (fun g e => g ||| e.2) 0 }

/-- XCVT. -/
def execXcvt (x a : BitVec 4) (i : Bool) (q : BitVec 3) (fmt : BitVec 4) (s : State) : Out :=
  if em s = 0 then .next (advance s)
  else commit s (do
    check (xcvtOk fmt q) (trapOf causeIllop 1)
    check (xHeld s x.toNat && xHeld s a.toNat) (trapOf causeIllopnd 2)
    check (roundingOk s) (trapOf causeIllopnd 4)
    .ok (issueMatrix s (regUse s (.xcvt x a i q fmt)) x.toNat
      (makeBeats (em s) (activeMask s) (helperMask s) (fun r =>
        xcvtRow s (if i then 0x1 else 0x4) (xcvtType fmt.toNat) q.toNat (xget s.w a.toNat r) (xget s.w x.toNat r)))))

/-! ## XMOVR and XMOVC (16 R422, R423) -/

/-- The row and column that lane l reaches: of its own row for XMOVC, of three consecutive rows for XMOVR. -/
def moveCell (col : Bool) (i l : Nat) : Nat := if col then 32 * l + i % 32 else 32 * ((i + l / 32) % 96) + l % 32

/-- The index i of R423. -/
def moveIndex (s : State) (imm : BitVec 2) (n : BitVec 6) : Nat := ((sget s n.toNat).toNat + imm.toNat) % 2 ^ 32

/-- Move between the words of a tile and a vector register. -/
def moveWords (col dir : Bool) (v : BitVec 7) (x : BitVec 4) (i : Nat) (s : State) : State :=
  if dir then
    { s with w := xputAll s.w x.toNat ((lanesOf (activeMask s)).map (fun l => (moveCell col i l, vget s v.toNat l))) }
  else vset s v.toNat (activeMask s) (fun l => Tab.get 0 (Tab.get [] s.w.tile x.toNat) (moveCell col i l))

/-- Move between a side vector and a vector register. -/
def moveSide (dir : Bool) (v : BitVec 7) (x : BitVec 4) (s : State) : State :=
  if dir then { s with w := sidePutAll s.w x.toNat ((lanesOf (activeMask s)).map (fun l => (l, vget s v.toNat l))) }
  else vset s v.toNat (activeMask s) (fun l => sideGet s.w x.toNat l)

/-- XMOVR. -/
def execXmovr (v : BitVec 7) (dir : Bool) (x : BitVec 4) (imm : BitVec 2) (n : BitVec 6) (s : State) : Out :=
  run s (do
    check (vHeld s v.toNat) (trapOf causeIllopnd 1)
    check (xHeld s x.toNat) (trapOf causeIllopnd 2)
    .ok (moveWords false dir v x (moveIndex s imm n) s))

/-- XMOVC. -/
def execXmovc (v : BitVec 7) (dir side : Bool) (x : BitVec 4) (imm : BitVec 2) (n : BitVec 6) (s : State) : Out :=
  run s (do
    check (!side || (imm == 0 && n == 0)) (trapOf causeIllop 1)
    check (vHeld s v.toNat) (trapOf causeIllopnd 1)
    check (xHeld s x.toNat) (trapOf causeIllopnd 2)
    .ok (if side then moveSide dir v x s else moveWords true dir v x (moveIndex s imm n) s))

/-! ## TLD and TST (16 R421) -/

/-- The address of row 0. -/
def tileBase (s : State) (loc : Bool) (f : BitVec 5) : Nat :=
  alignDown (if loc then pairOffset s f else (sget64 s (2 * f.toNat)).toNat) 128

/-- The accesses of a row: its number, address and length, and with .side those of its side element. -/
def tileAccs (s : State) (side loc : Bool) (f : BitVec 5) (r : Nat) : List (Nat × Nat × Nat) :=
  let at_ (d : Nat) : Nat := if loc then tileBase s loc f + d else (tileBase s loc f + d) % 2 ^ 64
  (r, at_ (128 * r), 128) :: (if side then [(96 + r, at_ (12288 + 4 * r), 4)] else [])

/-- Places of an access of a tile instruction. -/
def tilePlaces (s : State) (loc : Bool) (need : Need) (x : Nat × Nat × Nat) : Except LFault (List Nat) :=
  if loc then localPlaces s x.2.1 x.2.2 else accessPhys s need x.2.1 x.2.2

/-- The faults of accesses belong to their rows' lanes. -/
def rowFaults (xs : List (Nat × LFault)) : List (Nat × LFault) := xs.map (fun x => (x.1 % 96, x.2))

/-- TLD. -/
def execTld (x : BitVec 4) (side loc : Bool) (f : BitVec 5) (k : BitVec 4) (s : State) : Out :=
  if em s = 0 then .next (advance s)
  else commit s (do
    check (xHeld s x.toNat) (trapOf causeIllopnd 2)
    checkScope s
    if activeMask s = 0 then .ok (advance s)
    else do
      let ids ← consumeAt s k.toNat
      let u := regUse s (.tld x side loc f k)
      let xs := (lanesOf (activeMask s)).flatMap (fun r => (tileAccs s side loc f r).map (fun y =>
        loadAcc (lane (helperMask s) r) y.1 y.2.1 (tilePlaces s loc .read y)))
      match lanesTrap (rowFaults (laneFaults xs)) with
      | some t => .error t
      | none =>
        let accs := okAccs xs
        .ok (advance (issueOp (if loc then s else installAll s (accs.map (·.va)) 4)
          { kind := .load loc 128 false (.tile x.toNat) accs, produce := k.toNat, consume := k.toNat, waits := ids
            scope := scope s, strong := true, flag := assignedFlag s, rd := u.rd, wr := u.wr
            member := nonHelperMask s != 0, uncached := if loc then [] else uncachedLines s (accs.map (·.va)) 4
            cls := if loc then [] else lineClasses s (accs.map (·.va)) 4, accs := if loc then [] else accs })))

/-- The bytes of a row, or of a side element. -/
def tileBytes (w : Wave) (x n : Nat) : List Byte :=
  if n < 96 then bytesOf 128 (tileRow w x n) else bytesOf 4 (sideGet w x (n - 96)).toNat

/-- TST: rows of active lanes that are no helper lanes. -/
def execTst (x : BitVec 4) (side loc : Bool) (f : BitVec 5) (k : BitVec 4) (s : State) : Out :=
  if em s = 0 then .next (advance s)
  else commit s (do
    check (xHeld s x.toNat) (trapOf causeIllopnd 2)
    checkScope s
    if nonHelperMask s = 0 then .ok (advance s)
    else
      issueStore s (regUse s (.tst x side loc f k)) loc 4
        ((lanesOf (nonHelperMask s)).flatMap (fun r => (tileAccs s side loc f r).map (fun y =>
          { lane := r, addr := y.2.1, cells := (tilePlaces s loc .write y).map (fun ps => ps.zip (tileBytes s.w x.toNat y.1)) })))
        false true k.toNat k.toNat (assignedFlag s))

/-! ## Beats and lines as events (12 R290, R293) -/

/-- Write the rows of a beat. -/
def writeBeat (x : Nat) (b : Beat) (s : State) : State := { s with w := sidePutAll (xputAll s.w x b.words) x b.sides }

/-- The next beat of matrix work, in its wave; after the last the flags of the instruction set and its own flag clears. -/
def beatStep (o : Op) (x : Nat) (beats : List (Nat × Beat)) (astat : Word) (s : State) : State :=
  match beats with
  | [] => completeOp o (raiseFlags s astat)
  | b :: rest =>
    let t := writeBeat x b.2 s
    if rest.isEmpty then completeOp o (raiseFlags t astat) else modOp o.id (fun p => { p with kind := .matrix x rest astat }) t

/-- The operation is work of a matrix share: an MMA or MMAB, streamed or not, XSCALE, XCVT, or a chunked SSCAN (R290, R297, R305). -/
def onShare (o : Op) : Bool :=
  o.fault.isNone && match o.kind with
    | .matrix .. => true
    | .stream _ => true
    | .steep j => j.chunked
    | _ => false

/-- The wave index of a handle. -/
def handleIdx (h : BitVec 64) : Nat := bits h.toNat 35 32

/-- The die, core and slot that an operation was issued on. -/
def opSlot (s : State) (o : Op) : Option (Nat × Nat × Nat) :=
  (findGroup s (groupOf o.owner)).map (fun g => (g.die, g.core, slotOf (handleIdx o.owner)))

/-- The share of the slot has done all that was issued to it earlier, by whichever wave (R290). -/
def shareFree (s : State) (o : Op) : Bool := s.ops.all (fun p => !(onShare p && decide (p.id < o.id) && opSlot s p == opSlot s o))

/-- MATRIX_BEAT_WRITE. -/
def execMatrixBeatWrite (op : Nat) (s : State) : Out :=
  .next (match findOp s op with
    | none => s
    | some o =>
      match o.kind with
      | .matrix x beats astat => if shareFree s o then withWave o.owner (beatStep o x beats astat) s else s
      | _ => s)

/-- With every line at hand the fetch is bound: its membership ends and the work goes on under the flag (R294, 10 R249); or
the instruction takes POISON. -/
def bindStream (o : Op) (j : StreamJob) (s : State) : State :=
  let real := j.job.act &&& ~~~j.job.help
  let faults := lineFaults real (j.bad.map (fun b => (b.1, ({ cause := causePoison, detail := b.2.1, addr := b.2.2 } : LFault))))
  match lanesTrap faults with
  | some t => modOp o.id (fun p => { p with
      fault := some { cause := t.cause, detail := t.detail, addr := t.addr, slots := 0 }, faultLanes := t.lanes.getD 0 }) s
  | none =>
    let r := mmaBeats s.w j.job (rowsA s.w j.job j.got) (rowsB s.w j.job j.got)
    let t := modOp o.id (fun p => { p with kind := .matrix j.job.x r.1 r.2, tag := none, waits := [], done := 6 }) s
    match o.tag with
    | none => t
    | some g => mapWaves (drainTag (t.ops.any (fun p => p.tag == some g)) g) t

/-- The lines of a fetch are read, as the slice can serve them: each is pinned, or read at its home where it is mapped uncached. -/
def pinLines (o : Op) (j : StreamJob) (places : List Nat) (s : State) : Option State :=
  if !linksUp s o then none
  else
    serveAll (fun l t =>
      let cls := Tab.get 0 o.cls l
      if o.uncached.contains l then uncachedReadServed j.die cls l t
      else if canRead t j.die none cls l then some (pinLine j.die cls l t) else none) ((linesOf places).filter cacheable) s

/-- A line arrives: it is pinned, its bytes are taken, and a mismatch takes its poison pattern (01 R33). -/
def takeLine (o : Op) (j : StreamJob) (x : StreamLine) (rest : List StreamLine) (s : State) : StreamJob × State :=
  match pinLines o j x.places s with
  | none => (j, s)
  | some t =>
    let v := loadView s o
    let secs := readSectors x.places
    let ls := (linesOf x.places).filter (fun l => cacheable l && !o.uncached.contains l)
    let t := (secs.filter (fun y => sectorDev v y != 0)).foldl poison t
    let j1 := { j with todo := rest, held := j.held ++ ls }
    match poisonCause (secs.map (sectorDev v)) with
    | some c => ({ j1 with bad := j.bad ++ [(x.key, c, x.va)] }, t)
    | none => ({ j1 with got := Tab.put 0 j.got x.key (numOf (x.places.map (loadByte v))) }, t)

/-- The line may be fetched now: earlier stores of the wave to it are accepted, and its set has room for a pin. -/
def lineReady (s : State) (o : Op) (j : StreamJob) (x : StreamLine) : Bool :=
  inOrder s blocksLoad { o with kind := .stream { j with todo := [x] } } &&
    ((linesOf x.places).filter (fun l => cacheable l && !o.uncached.contains l)).all (pinRoom s j.die)

/-- One line of a streamed instruction, and its binding after the last. -/
def fetchStep (o : Op) (j : StreamJob) (s : State) : State :=
  match j.todo with
  | [] => bindStream o j s
  | x :: rest =>
    if lineReady s o j x then
      let r := takeLine o j x rest s
      if r.1.todo.isEmpty then bindStream o r.1 r.2 else modOp o.id (fun p => { p with kind := .stream r.1 }) r.2
    else s

/-- TILE_FETCH_ARRIVAL. -/
def execTileFetchArrival (op : Nat) (s : State) : Out :=
  .next (match findOp s op with
    | none => s
    | some o =>
      match o.kind with
      | .stream j => if o.fault.isNone && waitsDone s o then settleAll (withWave o.owner (fetchStep o j) s) else s
      | _ => s)

end Sys2Proof.Machine
end

