-- ==== Sys2Proof/Machine/StateSpace.lean ====
section
/-!
DEFINITION. The state-space unit: descriptors, the chunked and the stepwise form, SSCAN, SSLD and SSST
(12 R300-R310; 16 R425, R426).
-/

namespace Sys2Proof.Machine

open Sys2Proof

/-! ## Descriptors (R301, R302) -/

/-- The lowest detail of Table 12-4 that a descriptor meets; SSLD and SSST test the fields they use. -/
def steepDefect (scan : Bool) (bs : List Byte) : Option Nat :=
  let fl := field bs 0 0
  let n := field bs 5 4
  let p := field bs 7 6
  let len := field bs 3 2
  let e := if bit fl 5 then 2 else 4
  let ey := if bit fl 6 then 2 else 4
  let sin := fl % 4
  let sout := fl / 4 % 4
  let sizeBad (x hi : Nat) : Bool := decide (x < 16) || decide (hi < x) || x % 16 != 0
  let off (hi lo m : Nat) : Bool := field bs hi lo % m != 0
  if sizeBad n 256 || sizeBad p 128 || (scan && (len == 0 || decide (256 < len))) then some 8
  else if bit fl 7 || !zeroBytes bs 1 1 || !zeroBytes bs 127 80 || field bs 15 12 / 2 ^ 19 != 0 || sin == 3 || sout == 3 then some 9
  else if off 15 12 16 || off 23 16 32 || (scan && (off 31 24 e || off 39 32 e || off 47 40 e || off 55 48 4 || off 63 56 ey ||
      off 67 64 e || off 71 68 e || off 75 72 e || off 79 76 ey)) then some 10
  else if !scan && !((sin == 1 && sout == 2) || (sin == 2 && sout == 1)) then some 11
  else none

/-- The 128 bytes of a checked descriptor (R302). -/
def steepBlock (s : State) (scan : Bool) (f : BitVec 5) : Except Trap (List Byte) := do
  let off := pairOffset s f
  check (off % 128 == 0) (trapOf causeFmtblk 10)
  insideLocal s off 128
  let bs := localBytes s off 128
  match steepDefect scan bs with
  | some d => .error (trapOf causeFmtblk d)
  | none =>
    let uses := !scan || field bs 0 0 % 4 == 1 || field bs 0 0 / 4 % 4 == 1
    if uses then insideLocal s (field bs 15 12) (4 * field bs 5 4 * field bs 7 6) else .ok ()
    .ok bs

/-- Translate a run of bytes. -/
def spanAt (s : State) (need : Need) (va n : Nat) : Except Trap Span :=
  match accessPhys s need (va % 2 ^ 64) n with
  | .error f => .error f.trap
  | .ok ps => .ok { va := va % 2 ^ 56, places := ps }

/-- Translate n runs of a stride. -/
def spansAt (s : State) (need : Need) (va stride n len : Nat) : Except Trap (List Span) :=
  (List.range n).mapM (fun t => spanAt s need (va + t * stride) len)

/-- The form of R303: chunked. -/
def formChunked (form len : Nat) : Bool := form == 1 || (form == 0 && decide (16 ≤ len))

/-- The job of SSCAN: every address translated and checked before any operand is read (R307). -/
def scanJob (s : State) (bs : List Byte) : Except Trap SteepJob := do
  let fl := field bs 0 0
  let len := field bs 3 2
  let n := field bs 5 4
  let p := field bs 7 6
  let e := if bit fl 5 then 2 else 4
  let ey := if bit fl 6 then 2 else 4
  let eh := if bit fl 4 then 2 else 4
  let rows (need : Need) : Except Trap (List Span) := spansAt s need (field bs 23 16) (p * eh) n (p * eh)
  let a ← spanAt s .read (field bs 55 48) (4 * len)
  let x ← spansAt s .read (field bs 31 24) (field bs 67 64) len (p * e)
  let b ← spansAt s .read (field bs 39 32) (field bs 71 68) len (n * e)
  let c ← spansAt s .read (field bs 47 40) (field bs 75 72) len (n * e)
  let hIn ← if fl % 4 = 2 then rows .read else .ok []
  let y ← spansAt s .write (field bs 63 56) (field bs 79 76) len (p * ey)
  let hOut ← if fl / 4 % 4 = 2 then rows .write else .ok []
  .ok { which := 0, chunked := formChunked (steepForm s) len, len := len, n := n, p := p, d := BitVec.ofNat 32 (field bs 11 8)
        gbf := bit fl 4, xbf := bit fl 5, ybf := bit fl 6, localIn := fl % 4 == 1, localOut := fl / 4 % 4 == 1
        lstate := field bs 15 12, a := [a], x := x.map (fun q => [q]), b := b.map (fun q => [q]), c := c.map (fun q => [q])
        hIn := hIn, y := y.map (fun q => [q]), hOut := hOut }

/-- The job of SSLD, which loads the global state to the local one, or of SSST, which stores it (R308). -/
def moveJob (s : State) (store : Bool) (bs : List Byte) : Except Trap SteepJob := do
  let fl := field bs 0 0
  let n := field bs 5 4
  let p := field bs 7 6
  let eh := if bit fl 4 then 2 else 4
  let rows ← spansAt s (if store then .write else .read) (field bs 23 16) (p * eh) n (p * eh)
  .ok { which := if store then 2 else 1, chunked := false, len := 0, n := n, p := p, d := 0
        gbf := bit fl 4, xbf := false, ybf := false, localIn := store, localOut := !store
        lstate := field bs 15 12, a := [], x := [], b := [], c := []
        hIn := if store then [] else rows, y := [], hOut := if store then rows else [] }

/-- The addresses of the lines that accesses lie in. -/
def spanLines (xs : List Span) : List Nat :=
  xs.flatMap (fun x => (List.range ((x.places.length + 127) / 128)).map (fun i => x.va + 128 * i) ++ [x.va + (x.places.length - 1)])

/-- Issue of a state-space instruction: strong, its key consumed and joined (16 R413). -/
def issueSteep (s : State) (u : Use) (k : Nat) (job : Except Trap SteepJob) : Res := do
  let ids ← consumeAt s k
  let j ← job
  let as := spanLines (steepReads j ++ steepWrites j)
  .ok (advance (issueOp (installAll s as 1)
    { kind := .steep j, produce := k, consume := k, waits := ids, scope := scope s, strong := true, flag := assignedFlag s
      rd := u.rd, wr := u.wr, member := nonHelperMask s != 0, uncached := uncachedLines s as 1, cls := lineClasses s as 1
      accs := (steepReads j ++ steepWrites j).map (fun x => { lane := 0, va := x.va, bytes := x.places }), once := true }))

/-- SSCAN. -/
def execSscan (f : BitVec 5) (k : BitVec 4) (s : State) : Out :=
  if em s = 0 then .next (advance s)
  else commit s (do
    if activeMask s = 0 then .ok (advance s)
    else do
      let bs ← steepBlock s true f
      check (decide (steepForm s ≤ 2) && decide (scope s ≤ 5)) (trapOf causeIllopnd 4)
      issueSteep s (regUse s (.sscan f k)) k.toNat (scanJob s bs))

/-- SSLD. -/
def execSsld (f : BitVec 5) (k : BitVec 4) (s : State) : Out :=
  if em s = 0 then .next (advance s)
  else commit s (do
    if activeMask s = 0 then .ok (advance s)
    else do
      let bs ← steepBlock s false f
      checkScope s
      issueSteep s (regUse s (.ssld f k)) k.toNat (moveJob s false bs))

/-- SSST. -/
def execSsst (f : BitVec 5) (k : BitVec 4) (s : State) : Out :=
  if em s = 0 then .next (advance s)
  else commit s (do
    if activeMask s = 0 then .ok (advance s)
    else do
      let bs ← steepBlock s false f
      checkScope s
      issueSteep s (regUse s (.ssst f k)) k.toNat (moveJob s true bs))

/-! ## Arithmetic (R304): a value with the flags of every step that led to it -/

/-- A value and the flags raised on its way. -/
abbrev FVal := Num.Val × Word

/-- An F32 pattern as a value. -/
def fOf (x : Nat) : FVal := (Num.f32.decode x, 0)

/-- round_rne to F32. -/
def fRound (x : FVal) : FVal := let r := rne false x.1; (r.1, x.2 ||| r.2)

/-- Exact product. -/
def fMul (a b : FVal) : FVal := let p := Num.mul a.1 b.1; (p.1, a.2 ||| b.2 ||| p.2)

/-- Exact sum. -/
def fAdd (a b : FVal) : FVal := let p := Num.add 0 a.1 b.1; (p.1, a.2 ||| b.2 ||| p.2)

/-- Rounded product and sum. -/
def fMulR (a b : FVal) : FVal := fRound (fMul a b)
def fAddR (a b : FVal) : FVal := fRound (fAdd a b)

/-- The rounded sum of the products q·16 to q·16 + 15. -/
def fChunk (ps : List FVal) (q : Nat) : FVal := fRound (sumProducts ((ps.drop (16 * q)).take 16))

/-- dot(u, v) of R304. -/
def fDot (us vs : List FVal) : FVal :=
  let ps := List.zipWith fMul us vs
  (List.range ((ps.length + 15) / 16 - 1)).foldl (fun acc q => fAddR acc (fChunk ps (q + 1))) (fChunk ps 0)

/-- Element i of a list, column i of a list of rows. -/
def fAt (xs : List FVal) (i : Nat) : FVal := xs.getD i (.nan, 0)
def fCol (rows : List (List FVal)) (i : Nat) : List FVal := rows.map (fun r => fAt r i)

/-- start, start·a₁, start·a₁·a₂, … each product rounded. -/
def decays (start : FVal) : List FVal → List FVal
  | [] => [start]
  | a :: as => start :: decays (fMulR start a) as

/-- The operands of SSCAN. -/
structure ScanIn where
  a : List FVal
  b : List (List FVal)
  c : List (List FVal)
  x : List (List FVal)
  d : FVal
  h : List (List FVal)

/-- sscan_chunked of R305: y and the state out. -/
def scanChunked (i : ScanIn) : List (List FVal) × List (List FVal) :=
  let len := i.a.length
  let p := (i.h.headD []).length
  let one : FVal := (.fin false 1 0, 0)
  let col (j : Nat) : List FVal := decays one (i.a.drop (j + 1))
  let g := decays (fAt i.a 0) (i.a.drop 1)
  let m (r : Nat) : List FVal := (List.range (r + 1)).map (fun j =>
    fMulR (fDot (i.c.getD r []) (i.b.getD j [])) (fAt (col j) (r - j)))
  let y := (List.range len).map (fun r =>
    let mr := m r
    (List.range p).map (fun q =>
      let u := fAddR (fDot mr (fCol (i.x.take (r + 1)) q)) (fMulR i.d (fAt (i.x.getD r []) q))
      fAddR u (fMulR (fAt g r) (fDot (i.c.getD r []) (fCol i.h q)))))
  let w := (List.range len).map (fun j => (i.b.getD j []).map (fMulR (fAt (col j) (len - 1 - j))))
  let h := i.h.mapIdx (fun n row => row.mapIdx (fun q h0 =>
    fAddR (fDot (fCol w n) (fCol i.x q)) (fMulR (fAt g (len - 1)) h0)))
  (y, h)

/-- One step of sscan_stepwise (R306): the new state and y_t. -/
def scanStep (i : ScanIn) (h : List (List FVal)) (t : Nat) : List (List FVal) × List FVal :=
  let a := fAt i.a t
  let b := i.b.getD t []
  let x := i.x.getD t []
  let h1 := h.mapIdx (fun n row => row.mapIdx (fun q e => fRound (fAdd (fMul a e) (fMulR (fAt b n) (fAt x q)))))
  (h1, x.mapIdx (fun q e => fAddR (fDot (i.c.getD t []) (fCol h1 q)) (fMulR i.d e)))

/-- sscan_stepwise of R306. -/
def scanStepwise (i : ScanIn) : List (List FVal) × List (List FVal) :=
  let r := (List.range i.a.length).foldl (fun r t =>
    let q := scanStep i r.2 t
    (r.1 ++ [q.2], q.1)) (([] : List (List FVal)), i.h)
  (r.1, r.2)

/-! ## Reading and writing (R307, R308) -/

/-- Bytes of spans. -/
def spanBytes (v : State) (xs : List Span) : List Byte := xs.flatMap (fun x => x.places.map (loadByte v))

/-- A BF16 pattern as the F32 pattern of equal value; a NaN gives the canonical one (11 R268). -/
def widenBf (x : Nat) : Nat := if x % 2 ^ 15 ≤ 0x7F80 then x * 2 ^ 16 else 0x7FC00000

/-- Elements of bytes as F32 patterns. -/
def f32Elems (bf : Bool) (bs : List Byte) : List Nat :=
  if bf then (List.range (bs.length / 2)).map (fun i => widenBf (numOf ((bs.drop (2 * i)).take 2)))
  else (List.range (bs.length / 4)).map (fun i => numOf ((bs.drop (4 * i)).take 4))

/-- F32 patterns in a declared format, with the flags of the rounding to BF16. -/
def storeElems (bf : Bool) (xs : List Nat) : List Byte × Word :=
  if bf then
    let rs := xs.map (fun x => Num.round Num.bf16 0 false .arith (Num.f32.decode x))
    (rs.flatMap (fun r => bytesOf 2 r.1), rs.foldl (fun f r => f ||| r.2) 0)
  else (xs.flatMap (bytesOf 4), 0)

/-- The F32 pattern of a value. -/
def fBits (x : FVal) : Nat := (Num.round Num.f32 0 false .arith x.1).1

/-- Flags of a table of values. -/
def fFlags (rows : List (List FVal)) : Word := rows.foldl (fun f r => r.foldl (fun g x => g ||| x.2) f) 0

/-- Local offsets of the state. -/
def stateOffsets (j : SteepJob) : List Nat := (List.range (4 * j.n * j.p)).map (j.lstate + ·)

/-- The state read: none (zero), local in F32, or global. -/
def stateIn (v : State) (j : SteepJob) : List Nat :=
  if j.localIn then f32Elems false ((stateOffsets j).map (locByte v.g))
  else if j.hIn = [] then List.replicate (j.n * j.p) 0
  else f32Elems j.gbf (spanBytes v j.hIn)

/-- Rows of P elements. -/
def rowsOfP (p : Nat) (xs : List Nat) (n : Nat) : List (List FVal) :=
  (List.range n).map (fun i => ((xs.drop (p * i)).take p).map fOf)

/-- A row of elements at a step. -/
def stepRow (v : State) (bf : Bool) (xs : List Span) : List FVal := (f32Elems bf (spanBytes v xs)).map fOf

/-- What SSCAN computes: y and the state out as F32 patterns, and the flags of its steps. -/
def scanResult (v : State) (j : SteepJob) : List Nat × List Nat × Word :=
  let i : ScanIn :=
    { a := stepRow v false j.a, b := j.b.map (stepRow v j.xbf), c := j.c.map (stepRow v j.xbf), x := j.x.map (stepRow v j.xbf)
      d := fOf j.d.toNat, h := rowsOfP j.p (stateIn v j) j.n }
  let r := if j.chunked then scanChunked i else scanStepwise i
  (r.1.flatten.map fBits, r.2.flatten.map fBits, fFlags r.1 ||| fFlags r.2)

/-- The outputs of a job: global cells, local cells, and flags. -/
def steepOut (v : State) (j : SteepJob) : List (Nat × Byte) × List (Nat × Byte) × Word :=
  let r := if j.which = 0 then scanResult v j else ([], stateIn v j, 0)
  let ys := storeElems j.ybf r.1
  let hs := storeElems j.gbf r.2.1
  let loc := if j.localOut then (stateOffsets j).zip (storeElems false r.2.1).1 else []
  ((spanPlaces j.y.flatten).zip ys.1 ++ (spanPlaces j.hOut).zip hs.1, loc,
    r.2.2 ||| ys.2 ||| (if j.hOut = [] then 0 else hs.2))

/-! ## Events (10 R246, R247) -/

/-- Offsets of local memory stand among the places of a state-space instruction from here on. -/
def localKey : Nat := 2 ^ 64

/-- The view that a state-space instruction computes from: memory as its wave sees it, where earlier events have not bound the bytes
already. -/
def steepView (s : State) (o : Op) : State :=
  let v := memWrite (loadView s o) (o.got.filter (fun c => decide (c.1 < localKey)))
  { v with g := locStore v.g ((o.got.filter (fun c => decide (localKey ≤ c.1))).map (fun c => (c.1 - localKey, c.2))) }

/-- Places that earlier events have not bound. -/
def unread (o : Op) (as : List Nat) : List Nat := as.filter (fun a => !o.got.any (fun c => c.1 == a))

/-- Offsets of the local state that earlier events have not bound. -/
def unreadState (o : Op) (j : SteepJob) : List Nat :=
  if j.localIn then (stateOffsets j).filter (fun x => !o.got.any (fun c => c.1 == localKey + x)) else []

/-- The POISON of a read: the first span that meets one, then the local state (01 R33) (log 35). -/
def steepPoison (v : State) (o : Op) (j : SteepJob) : Option (Nat × Nat) :=
  match (steepReads j).findSome? (fun x =>
      (poisonCause ((readSectors (unread o x.places)).map (sectorDev v))).map (fun c => (c, x.va))) with
  | some r => some r
  | none => (poisonCause ((((unreadState o j).map (· / 32)).eraseDups).map (locDev v.g))).map (fun c => (c, j.lstate))

/-- No earlier local store of the wave stands in the way of the local state (10 R244). -/
def localFree (s : State) (o : Op) (off n : Nat) : Bool :=
  s.ops.all (fun p => match p.kind with
    | .store true cells => !(before p o && cells.any (fun c => decide (off ≤ c.1) && decide (c.1 < off + n)))
    | _ => true)

/-- Sectors that the reads find to mismatch take their poison pattern. -/
def steepMark (v : State) (o : Op) (j : SteepJob) (s : State) : State :=
  let t := ((readSectors (unread o (spanPlaces (steepReads j)))).filter (fun x => sectorDev v x != 0)).foldl poison s
  { t with g := ((((unreadState o j).map (· / 32)).eraseDups).filter (fun x => locDev v.g x != 0)).foldl locPoison t.g }

/-- A line of global operands is read through the L2 and pinned there while it is read, where its set has room for the pin (R307; 07 R184;
08 R200), or read at its home where it is mapped uncached. -/
def steepServed (o : Op) (l : Nat) (s : State) : Option State :=
  let cls := Tab.get 0 o.cls l
  if o.uncached.contains l then uncachedReadServed o.die cls l s
  else if canRead s o.die none cls l && pinRoom s o.die l then
    some (l2Mod o.die l (fun x => { x with pins := x.pins - 1 }) (pinLine o.die cls l s))
  else none

/-- The lines of global operands, read once every one can be. -/
def steepFill (o : Op) (as : List Nat) (s : State) : Option State :=
  if !linksUp s o || !hostReadFree s as then none else serveAll (steepServed o) ((linesOf as).filter cacheable) s

/-- A load of these places alone, for what stands in its way. -/
def readPart (o : Op) (as : List Nat) : Op := { o with kind := .load false 4 false (.vec 0) [{ lane := 0, va := 0, bytes := as }] }

/-- What is left of the operands is read and the outputs computed, or the instruction takes POISON. -/
def steepRead (o : Op) (j : SteepJob) (s : State) : State :=
  let as := unread o (spanPlaces (steepReads j))
  if inOrder s blocksLoad o && queueOrdered s (readPart o as) &&
      localFree s o j.lstate (if j.localIn || j.localOut then 4 * j.n * j.p else 0) then
    match steepFill o as s with
    | none => s
    | some t =>
      let v := steepView t o
      match steepPoison v o j with
      | some r => modOp o.id (fun p => { p with fault := some { cause := causePoison, detail := r.1, addr := r.2, slots := 0 } })
          (steepMark v o j t)
      | none =>
        let r := steepOut v j
        modOp o.id (fun p => { p with kind := .stateOut r.1 r.2.1 r.2.2, got := [] }) t
  else s

/-- The operands that one sector holds are read before the others: of global memory, or of the local state (from localKey on). -/
def steepBind (o : Op) (j : SteepJob) (a : Nat) (s : State) : State :=
  if localKey ≤ a then
    let xs := (unreadState o j).filter (fun x => x / 32 == (a - localKey) / 32)
    if xs = [] || locDev s.g ((a - localKey) / 32) != 0 || !localFree s o ((a - localKey) / 32 * 32) 32 then s
    else modOp o.id (fun p => { p with got := p.got ++ xs.map (fun x => (localKey + x, locByte s.g x)) }) s
  else
    let as := ((unread o (spanPlaces (steepReads j))).filter (fun x => x / 32 == a / 32 && paRegion x != 2)).eraseDups
    if as = [] || !inOrder s blocksLoad (readPart o as) || !queueOrdered s (readPart o as) then s
    else
      match steepFill o as s with
      | none => s
      | some t =>
        let v := loadView t o
        if sectorDev v (a / 32) != 0 then s
        else modOp o.id (fun p => { p with got := p.got ++ as.map (fun x => (x, loadByte v x)) }) t

/-- Outputs in global memory may be performed: nothing earlier stands in the way, and every module is reached. -/
def steepFree (s : State) (o : Op) (glob : List (Nat × Byte)) : Bool :=
  inOrder s blocksWrite { o with kind := .stateOut glob [] 0 } && (glob.findSome? (fun c => noroute s c.1)).isNone

/-- What is left of the outputs is performed; with some in host memory the instruction is performed at device scope, and awaits their
acknowledgement (10 R240). -/
def steepWrite (o : Op) (glob loc : List (Nat × Byte)) (astat : Word) (s : State) : State :=
  if o.done = 0 && steepFree s o glob then
    match storeWrite o glob s with
    | none => s
    | some t =>
      let t := raiseFlags { t with g := locStore t.g loc } astat
      if toHost (o.got ++ glob) then setDone o 5 t else completeOp o t
  else s

/-- The outputs of one sector are performed before the others, the last of them with the instruction. -/
def steepPut (o : Op) (glob loc : List (Nat × Byte)) (astat : Word) (a : Nat) (s : State) : State :=
  let here (c : Nat × Byte) : Bool := decide (a < localKey) && c.1 / 32 == a / 32
  let hereLoc (c : Nat × Byte) : Bool := decide (localKey ≤ a) && c.1 / 32 == (a - localKey) / 32
  let now := glob.filter here
  let nowLoc := loc.filter hereLoc
  let rest := glob.filter (fun c => !here c)
  let restLoc := loc.filter (fun c => !hereLoc c)
  if o.done = 0 && (now ++ nowLoc) ≠ [] && (rest ++ restLoc) ≠ [] && steepFree s o now then
    match storeWrite o now s with
    | none => s
    | some t =>
      modOp o.id (fun p => { p with kind := .stateOut rest restLoc astat, got := p.got ++ now })
        { t with g := locStore t.g nowLoc }
  else s

/-! ## The unit -/

/-- The operation has read an operand. -/
def unitStarted (o : Op) : Bool :=
  match o.kind with
  | .steep _ => !o.got.isEmpty
  | .stateOut .. => decide (o.done ≤ o.scope)
  | _ => false

/-- A later operation waits for this one, whose key is satisfied, or that is running. -/
def unitAhead (s : State) (o p : Op) : Bool :=
  match p.kind with
  | .steep _ => unitStarted p || (!unitStarted o && decide (p.id < o.id) && waitsDone s p)
  | .stateOut .. => unitStarted p
  | _ => false

/-- The core's unit is free for an operation: none is running, or arrived before with its key satisfied; a chunked form has its turn at
the slot's matrix share (R307, R290) (log 35). -/
def unitFree (s : State) (o : Op) : Bool :=
  (!onShare o || shareFree s o) && s.ops.all (fun p =>
    p.id == o.id || p.fault.isSome || (opSlot s p).map (fun x => (x.1, x.2.1)) != (opSlot s o).map (fun x => (x.1, x.2.1)) ||
      !unitAhead s o p)

/-- One event of a state-space instruction takes place by itself: the operands or the outputs of a sector. -/
def steepEvent (o : Op) (a : Nat) (s : State) : State :=
  match o.kind with
  | .steep j => if unitFree s o then withWave o.owner (steepBind o j a) s else s
  | .stateOut glob loc astat => withWave o.owner (steepPut o glob loc astat a) s
  | _ => s

/-- STATE_SPACE_COMPLETE: a state-space instruction reads its operands once its key is satisfied; then its outputs are
performed at its scope, and its flag clears (R307). -/
def execStateSpaceComplete (op : Nat) (s : State) : Out :=
  .next (match findOp s op with
    | none => s
    | some o =>
      if o.fault.isSome || !waitsDone s o then s
      else
        match o.kind with
        | .steep j => if unitFree s o then settleAll (withWave o.owner (steepRead o j) s) else s
        | .stateOut glob loc astat => settleAll (withWave o.owner (steepWrite o glob loc astat) s)
        | _ => s)

end Sys2Proof.Machine
end

