-- ==== Sys2Proof/Machine/Progress.lean ====
section
/-!
DEFINITION. Which event moves what is in flight on, where the step has no input and the focus stands still (log 1).
-/

namespace Sys2Proof.Machine

open Sys2Proof

/-- EJECT_THREAD_START: the thread of an ejected lane starts (06 R158). -/
def execEjectThreadStart (l : Nat) (s : State) : Out :=
  .next { s with w := { s.w with ejected := s.w.ejected.map (fun e => if e.lane = l then { e with started := true } else e) } }

/-- The event an operation in flight goes on by. -/
def opEvent (o : Op) (s : State) : Out :=
  match o.kind with
  | .load .. => execLoadDataReturn o.id s
  | .atomic .. => execLoadDataReturn o.id s
  | .store .. => if o.done = 5 then execHostWriteAck o.id s else execMemberPerformed o.id s
  | .matrix .. => execMatrixBeatWrite o.id s
  | .stream _ => execTileFetchArrival o.id s
  | .steep _ => execStateSpaceComplete o.id s
  | .stateOut .. => if o.done = 5 then execHostWriteAck o.id s else execStateSpaceComplete o.id s
  | .launch _ => execLaunchEnqueueComplete o.id s
  | .enq .. => execEngineEntryIssue o.id s
  | .copy _ => if o.done = 5 then execHostWriteAck o.id s else execCopyPerformed o.id s
  | .ksend _ _ _ _ remote => if remote then execRemoteKsendDeliver o.id s else execMemberPerformed o.id s
  | .arrive .. => execArrivalCounted o.id s

/-- An outcome that is a move: another state, which waits for no line and no translation (log 12). -/
def moved (s : State) (o : Out) : Option Out :=
  match o with
  | .next t => if t = s ∨ stalls t then none else some (.next t)
  | _ => none

/-- The event that moves an operation on, where it is enabled. -/
def progressEvent (s : State) (o : Op) : Option Out := moved s (opEvent o s)

/-- The event that moves a chain on, where it is enabled. -/
def chainEvent (s : State) (c : Chain) : Option Out := moved s (execEngineEntryIssue c.id s)

/-- A stalled claim of a group is met. -/
def claimEvent (s : State) : Option Out :=
  (allGroups s).findSome? (fun g => (g.peers.head?).bind (fun w => moved s (.next (withWave w.handle claimStep s))))

/-- What else goes on of itself: a delivery to a wave or a held copy of a fault entry of it, wherever the wave is, and a stalled
claim. -/
def focusEvent (s : State) : Option Out :=
  ((everyWave s).findSome? (fun w =>
    (moved s (.next (settleAll (deliveryStep w.handle s)))).or (moved s (.next (settleAll (heldStep w.handle s)))))).or
    (claimEvent s)

/-- The event that moves the protocol of a line of a slice on: a forward, the release of a pin, an invalidation or a recall with its
acknowledgement, or a request that waits (08 R205-R207). -/
def lineEvent (s : State) (x : L2Line) : Option Out :=
  if x.fwd.isSome then moved s (execForward x.die x.line s)
  else if (fetchHeld s x.die).count x.line < x.pins then moved s (execPinRelease x.die x.line s)
  else
    match x.txn with
    | none => moved s (.next (serveQueue x.die x.line s))
    | some t =>
      if 0 < t.sent ∨ t.arrived = t.expect then moved s (execInvalidationAck x.die x.line s)
      else t.targets.findSome? (fun a =>
        moved s (if a < 32 then execInvalidation x.die a x.line s else execEngineRecall x.die x.line s))

/-- A wave that passed the soft rejoin limit collects its lanes once all have arrived, in whichever set it is (06 R167). -/
def rejoinEvent (s : State) : Option Out :=
  ((allWaves s).filter (·.rejoinSoft)).findSome? (fun w =>
    moved s (.next (withWave w.handle (fun t => stateOf t (execLaneRejoin t)) s)))

/-- The first walk in progress ends (07 R195). -/
def walkEvent (s : State) : Option Out :=
  s.xlt.walks.head?.bind (fun w => moved s (.next (endWalk w s)))

/-- What goes on of itself beside the operations: open faults that are due, the protocol of lines, walks, a late rejoin, and a remap that
waited. -/
def moduleEvent (s : State) : Option Out :=
  (moved s (.next (settleAll s))).or ((s.coh.l2.findSome? (lineEvent s)).or
    ((walkEvent s).or ((rejoinEvent s).or ((waitingRemap s).map .next))))

/-- A swap of a slot whose active wave waits (04 R105), where nothing else moves. -/
def swapEvent (s : State) : Option Out := s.slots.findSome? (fun x => moved s (execSwapEligible x.die x.core x.slot s))

end Sys2Proof.Machine
end

