-- ==== Sys2Proof/Machine/Scalar.lean ====
section
/-!
DEFINITION. The scalar instructions (14 R344, R345, R350-R352).
-/

namespace Sys2Proof.Machine

open Sys2Proof

/-- Width of a scalar operation. -/
def scalarWidth (pair : Bool) : Nat := if pair then 64 else 32

/-- Old value of sd, or of its pair. -/
def sold (s : State) (d : Nat) (pair : Bool) : Nat := if pair then (sget64 s d).toNat else (sget s d).toNat

/-- Result and flags of a scalar operation at its operands (R344). -/
def scalarResult (s : State) (f : Alu.Op3) (d : Nat) (pair : Bool) (a b : Src) : Nat × Word :=
  f (scalarWidth pair) (Num.intSigned (ty s)) (sat s) (srcScalar s pair a).toNat (srcScalar s pair b).toNat (sold s d pair)

/-- The state after a scalar operation has written sd and its flags. -/
def scalarState (s : State) (f : Alu.Op3) (d : Nat) (pair : Bool) (a b : Src) : State :=
  let r := scalarResult s f d pair a b
  raiseFlags (sput s d pair (BitVec.ofNat 64 r.1)) r.2

/-- A scalar instruction with two sources (R344): performed once when any bit of em0-em2 is set. -/
def scalar2 (f : Alu.Op3) (d : BitVec 6) (pair : Bool) (a b : Src) (s : State) : Out :=
  run s (do
    checkS d.toNat pair [a, b]
    .ok (scalarState s f d.toNat pair a b))

/-- A scalar instruction whose result depends on signedness where uses holds: a reserved type then raises ILLOPND 4
(R344, 05 R139). -/
def scalarTyped (uses : Bool) (f : Alu.Op3) (d : BitVec 6) (pair : Bool) (a b : Src) (s : State) : Out :=
  run s (do
    checkS d.toNat pair [a, b]
    check (!uses || ty s != 7) (trapOf causeIllopnd 4)
    .ok (scalarState s f d.toNat pair a b))

/-- A scalar instruction with one source. -/
def scalar1 (f : Alu.Op3) (d : BitVec 6) (pair : Bool) (a : Src) (s : State) : Out :=
  run s (do
    checkS d.toNat pair [a]
    .ok (scalarState s f d.toNat pair a (.nat 0)))

/-- SADD: a + b, saturating (Table 14-3). -/
def execSadd (d : BitVec 6) (pair : Bool) (a b : Src) (s : State) : Out :=
  scalarTyped (sat s) Alu.add d pair a b s

/-- SSUB: a − b, saturating (Table 14-3). -/
def execSsub (d : BitVec 6) (pair : Bool) (a b : Src) (s : State) : Out :=
  scalarTyped (sat s) Alu.sub d pair a b s

/-- SMUL: low W bits of a × b, saturating (Table 14-3). -/
def execSmul (d : BitVec 6) (pair : Bool) (a b : Src) (s : State) : Out :=
  scalarTyped (sat s) Alu.mul d pair a b s

/-- SMULH: bits [2W-1:W] of the exact product (Table 14-3). -/
def execSmulh (d : BitVec 6) (pair : Bool) (a b : Src) (s : State) : Out :=
  scalarTyped true Alu.mulh d pair a b s

/-- SMAD: a × b + sd with sd read first, saturating (Table 14-3). -/
def execSmad (d : BitVec 6) (pair : Bool) (a b : Src) (s : State) : Out :=
  scalarTyped (sat s) Alu.mad d pair a b s

/-- SDIV: quotient of R351 (Table 14-3). -/
def execSdiv (d : BitVec 6) (pair : Bool) (a b : Src) (s : State) : Out :=
  scalarTyped true Alu.div d pair a b s

/-- SREM: remainder of R351 (Table 14-3) (log 21). -/
def execSrem (d : BitVec 6) (pair : Bool) (a b : Src) (s : State) : Out :=
  scalarTyped true Alu.rem d pair a b s

/-- SAND: bitwise and (Table 14-3). -/
def execSand (d : BitVec 6) (pair : Bool) (a b : Src) (s : State) : Out := scalar2 Alu.and d pair a b s

/-- SOR: bitwise or (Table 14-3). -/
def execSor (d : BitVec 6) (pair : Bool) (a b : Src) (s : State) : Out := scalar2 Alu.or d pair a b s

/-- SXOR: bitwise exclusive or (Table 14-3). -/
def execSxor (d : BitVec 6) (pair : Bool) (a b : Src) (s : State) : Out := scalar2 Alu.xor d pair a b s

/-- SSHL: a << (b mod W) (Table 14-3). -/
def execSshl (d : BitVec 6) (pair : Bool) (a b : Src) (s : State) : Out := scalar2 Alu.shl d pair a b s

/-- SSHR: a >> (b mod W), zero fill (Table 14-3). -/
def execSshr (d : BitVec 6) (pair : Bool) (a b : Src) (s : State) : Out := scalar2 Alu.shr d pair a b s

/-- SSAR: a >> (b mod W), sign fill (Table 14-3). -/
def execSsar (d : BitVec 6) (pair : Bool) (a b : Src) (s : State) : Out := scalar2 Alu.sar d pair a b s

/-- SMIN: the smaller, by type (Table 14-3). -/
def execSmin (d : BitVec 6) (pair : Bool) (a b : Src) (s : State) : Out :=
  scalarTyped true Alu.min d pair a b s

/-- SMAX: the larger, by type (Table 14-3). -/
def execSmax (d : BitVec 6) (pair : Bool) (a b : Src) (s : State) : Out :=
  scalarTyped true Alu.max d pair a b s

/-- SBFE: the field of a that b gives (R352) (Table 14-3). -/
def execSbfe (d : BitVec 6) (pair : Bool) (a b : Src) (s : State) : Out :=
  scalarTyped true Alu.bfe d pair a b s

/-- SBFI: sd with the field that b gives replaced from a (R352) (Table 14-3). -/
def execSbfi (d : BitVec 6) (pair : Bool) (a b : Src) (s : State) : Out := scalar2 Alu.bfi d pair a b s

/-- SSEL: a when sd is not 0, else b (Table 14-3). -/
def execSsel (d : BitVec 6) (pair : Bool) (a b : Src) (s : State) : Out := scalar2 Alu.sel d pair a b s

/-- SCMP.eq: 1 when a = b (Table 14-3). -/
def execScmpEq (d : BitVec 6) (pair : Bool) (a b : Src) (s : State) : Out := scalar2 Alu.cmpEq d pair a b s

/-- SCMP.ne: 1 when a ≠ b (Table 14-3). -/
def execScmpNe (d : BitVec 6) (pair : Bool) (a b : Src) (s : State) : Out := scalar2 Alu.cmpNe d pair a b s

/-- SCMP.lt: 1 when a < b as two’s complement (Table 14-3). -/
def execScmpLt (d : BitVec 6) (pair : Bool) (a b : Src) (s : State) : Out := scalar2 Alu.cmpLt d pair a b s

/-- SCMP.le: 1 when a ≤ b as two’s complement (Table 14-3). -/
def execScmpLe (d : BitVec 6) (pair : Bool) (a b : Src) (s : State) : Out := scalar2 Alu.cmpLe d pair a b s

/-- SCMP.ltu: 1 when a < b unsigned (Table 14-3). -/
def execScmpLtu (d : BitVec 6) (pair : Bool) (a b : Src) (s : State) : Out := scalar2 Alu.cmpLtu d pair a b s

/-- SCMP.leu: 1 when a ≤ b unsigned (Table 14-3). -/
def execScmpLeu (d : BitVec 6) (pair : Bool) (a b : Src) (s : State) : Out := scalar2 Alu.cmpLeu d pair a b s

/-- SMOV: a (Table 14-3). -/
def execSmov (d : BitVec 6) (pair : Bool) (a : Src) (s : State) : Out := scalar1 Alu.mov d pair a s

/-- SNOT: bitwise inverse of a (Table 14-3). -/
def execSnot (d : BitVec 6) (pair : Bool) (a : Src) (s : State) : Out := scalar1 Alu.not d pair a s

/-- SCLZ: zeros above the highest set bit (Table 14-3). -/
def execSclz (d : BitVec 6) (pair : Bool) (a : Src) (s : State) : Out := scalar1 Alu.clzOp d pair a s

/-- SPOPC: number of set bits (Table 14-3). -/
def execSpopc (d : BitVec 6) (pair : Bool) (a : Src) (s : State) : Out := scalar1 Alu.popc d pair a s

/-- SMOVI: the immediate sign-extended to 32 bits (Table 14-3). -/
def execSmovi (d : BitVec 6) (imm : BitVec 16) (s : State) : Out :=
  run s (.ok (sset s d.toNat (imm.signExtend 32)))

/-- SMOVHI: sd with bits [31:16] replaced by the immediate (Table 14-3). -/
def execSmovhi (d : BitVec 6) (imm : BitVec 16) (s : State) : Out :=
  run s (.ok (sset s d.toNat (imm ++ (sget s d.toNat).extractLsb' 0 16)))

end Sys2Proof.Machine
end

