-- ==== Sys2Proof/Machine/System.lean ====
section
/-!
DEFINITION. The system instructions and the encodings that are no instruction (16 R427-R435; 13 R328, R329; 05 R142-R144).
-/

namespace Sys2Proof.Machine

open Sys2Proof

/-! ## Traps (R428, R429) -/

/-- A trap instruction: its lanes are the active non-helper lanes, and with none it has no effect; the return address is
the following instruction. -/
def trapInstr (cause : Nat) (imm : BitVec 16) (s : State) : Out :=
  if nonHelperMask s = 0 then .next (advance s)
  else .next (takeTrap { cause := cause, detail := imm.toNat, lanes := some (nonHelperMask s), after := true } s)

/-- TRAP (R428). -/
def execTrap (imm : BitVec 16) (s : State) : Out := trapInstr causeTrap imm s

/-- BKPT (R428). -/
def execBkpt (imm : BitVec 16) (s : State) : Out := trapInstr causeBkpt imm s

/-- TRET: ends trap mode when any lane is active; outside trap mode ILLOP detail 1, and with a handler's stack entry in
use a double fault (R429). -/
def execTret (s : State) : Out :=
  if em s = 0 then .next (advance s)
  else if !s.w.trap.on then .next (takeTrap (trapOf causeIllop 1) s)
  else if activeMask s = 0 then .next (advance s)
  else if s.w.trap.stack ≠ [] then .next (takeTrap (trapOf causeStackovf 0) s)
  else .next (trapReturn s)

/-! ## STIME (R431) -/

/-- The module time counter as an instruction finds it: at least one clk later than the last reading, and never lower (R431 Order); its
last value stays (log 7). -/
def tick (s : State) : State :=
  { s with time := BitVec.ofNat 64 (min (2 ^ 64 - 1) (s.time.toNat + 1 + Config.freeTicks s.fresh)), fresh := s.fresh + 1 }

/-- STIME (R431): once for the wave when any lane is active. -/
def execStime (d : BitVec 6) (p : Bool) (s : State) : Out :=
  run s (do
    check (!p || d.toNat % 2 == 0) (trapOf causeIllopnd 5)
    .ok (if activeMask s = 0 then s else sput (tick s) d.toNat p (tick s).time))

/-! ## System registers (R432-R434) -/

/-- wstat (05 Table 5-10). -/
def wstat (w : Wave) : Word :=
  BitVec.ofNat 32 (w.idx % 16 + w.idx % 4 * 2 ^ 4 + w.vblocks % 32 * 2 ^ 8 + w.tiles % 32 * 2 ^ 13 +
    w.stack.length % 32 * 2 ^ 18 + (if w.trap.on then 2 ^ 23 else 0) + w.ejected.length % 128 * 2 ^ 24)

/-- The soft rejoin limit in force: 65,536 for a descriptor field of 0. -/
def softLimit (c : Ctx) : Nat := if c.softrejoin = 0 then 65536 else c.softrejoin

/-- PREEMPT: pending, and the µs left, which are free up to the grace time (log 11). -/
def preemptReg (s : State) : Word :=
  match s.g.preempt with
  | none => 0
  | some grace => BitVec.ofNat 32 (1 + 65536 * min 65535 (grace - min grace (Config.freeTicks s.fresh)))

/-- The number names a trap register. -/
def isTrapReg (n : Nat) : Bool := decide (0x10 ≤ n) && decide (n ≤ 0x19)

/-- The value of a system register, for the numbers that SYSR may read (Table 16-6). -/
def sysRead (s : State) (n : Nat) : Option Word :=
  let t := s.w.trap
  let c := ctxGet s s.g.ctx
  if isTrapReg n && !t.on then none
  else
    match n with
    | 0x00 => some s.w.mode
    | 0x01 => some s.w.role
    | 0x02 => some s.w.astat
    | 0x03 => some (wstat s.w)
    | 0x04 => some (maskWord s.w.hmask 0)
    | 0x05 => some (maskWord s.w.hmask 1)
    | 0x06 => some (maskWord s.w.hmask 2)
    | 0x08 => some (s.w.name.extractLsb' 0 32)
    | 0x09 => some (s.w.name.extractLsb' 32 32)
    | 0x0C => some s.w.rand.x
    | 0x0D => some s.w.rand.y
    | 0x0E => some s.w.rand.z
    | 0x0F => some s.w.rand.w
    | 0x10 => some t.cause
    | 0x11 => some t.detail
    | 0x12 => some (t.pc.extractLsb' 0 32)
    | 0x13 => some ((t.pc.extractLsb' 32 24).setWidth 32)
    | 0x14 => some (t.addr.extractLsb' 0 32)
    | 0x15 => some ((t.addr.extractLsb' 32 24).setWidth 32)
    | 0x16 => some (maskWord t.em 0)
    | 0x17 => some (maskWord t.em 1)
    | 0x18 => some (maskWord t.em 2)
    | 0x19 => some t.mode
    | 0x20 => some (preemptReg s)
    | 0x21 => some (BitVec.ofNat 32 (softLimit c))
    | 0x22 => some (BitVec.ofNat 32 c.trapvec)
    | 0x23 => some (BitVec.ofNat 32 (c.trapvec / 2 ^ 32 % 2 ^ 24))
    | _ => none

/-- A reading of PREEMPT draws a free value. -/
def sysDraw (s : State) (n : Nat) : State := if n = 0x20 then { s with fresh := s.fresh + 1 } else s

/-- SYSR (R432): once for the wave when any lane is active. -/
def execSysr (d : BitVec 6) (n : BitVec 8) (s : State) : Out :=
  run s (
    match sysRead s n.toNat with
    | none => .error (trapOf causeIllop 4)
    | some v => .ok (if activeMask s = 0 then s else sset (sysDraw s n.toNat) d.toNat v))

/-- Replace mask word i. -/
def putMaskWord (m : LaneMask) (i : Nat) (v : Word) : LaneMask :=
  maskOfWords (if i = 0 then v else maskWord m 0) (if i = 1 then v else maskWord m 1) (if i = 2 then v else maskWord m 2)

/-- A register after SYSW, for the numbers it may write (Table 16-6). -/
def sysWrite (s : State) (n : Nat) (v : Word) : Option Wave :=
  let w := s.w
  let t := w.trap
  if isTrapReg n && !t.on then none
  else
    match n with
    | 0x02 => some { w with astat := w.astat &&& ~~~v }
    | 0x04 => some { w with hmask := putMaskWord w.hmask 0 v }
    | 0x05 => some { w with hmask := putMaskWord w.hmask 1 v }
    | 0x06 => some { w with hmask := putMaskWord w.hmask 2 v }
    | 0x0C => some { w with rand := { w.rand with x := v } }
    | 0x0D => some { w with rand := { w.rand with y := v } }
    | 0x0E => some { w with rand := { w.rand with z := v } }
    | 0x0F => some { w with rand := { w.rand with w := v } }
    | 0x12 => some { w with trap := { t with pc := t.pc.extractLsb' 32 24 ++ (v &&& 0xFFFFFFFC) } }
    | 0x13 => some { w with trap := { t with pc := v.extractLsb' 0 24 ++ t.pc.extractLsb' 0 32 } }
    | 0x16 => some { w with trap := { t with em := putMaskWord t.em 0 v } }
    | 0x17 => some { w with trap := { t with em := putMaskWord t.em 1 v } }
    | 0x18 => some { w with trap := { t with em := putMaskWord t.em 2 v } }
    | 0x19 => some { w with trap := { t with mode := v &&& 0x3FFFFF } }
    | _ => none

/-- A source of SYSW: a scalar register or a constant (R427). -/
def sysSource : Src → Bool
  | .s _ => true
  | .nat _ => true
  | .neg _ => true
  | .flt _ => true
  | _ => false

/-- SYSW (R432): once for the wave when any lane is active. -/
def execSysw (n : BitVec 8) (b : Src) (s : State) : Out :=
  run s (
    match sysWrite s n.toNat (srcLane s (ty s) b 0) with
    | none => .error (trapOf causeIllop 4)
    | some w => do
      check (sysSource b) (trapOf causeIllopnd 0)
      .ok (if activeMask s = 0 then s else { s with w := w }))

/-! ## Encodings that are no instruction (13 R328, R329) -/

/-- Opcodes of the wave-level instructions, checked whatever the mask (06 Table 6-7). -/
def waveOpcode (op : Nat) : Bool :=
  (decide (2 ≤ op) && decide (op ≤ 4)) || (decide (8 ≤ op) && decide (op ≤ 17)) || op == 0x88 || op == 0x89 ||
    (decide (0x90 ≤ op) && decide (op ≤ 0x93))

/-- TRAP_DETAIL of an encoding that is no instruction (Table 13-10). -/
def illegalDetail (w : Word) : Nat :=
  match decode w with
  | .error .reservedField => 1
  | _ => 0

/-- UNASSIGNED_ENCODING: ILLOP, precise; with an all-zero mask nothing but the issue cycle, unless the opcode is that of a
wave-level instruction. -/
def execUnassignedEncoding (word : Word) (s : State) : Out :=
  if em s = 0 ∧ !(illegalDetail word == 1 && waveOpcode (word.extractLsb' 23 9).toNat) then .next (advance s)
  else .next (takeTrap (trapOf causeIllop (illegalDetail word)) s)

end Sys2Proof.Machine
end

