-- ==== Sys2Proof/Machine/Timeout.lean ====
section
/-!
DEFINITION. Accesses that no module answers: NOROUTE cause 3 of whatever an operation has sent to another module (02 R55; 10 R251,
R256; 04 R458).
-/

namespace Sys2Proof.Machine

open Sys2Proof

/-- An access reaches another module. -/
def away (s : State) (a : LaneAcc) : Bool := a.bytes.any (fun x => paModule x != s.fab.module)

/-- The entry of an access without a response. -/
def lostEntry (va : Nat) : FaultEntry := { cause := causeNoroute, detail := 3, addr := va % 2 ^ 56, slots := 0 }

/-- The lanes that an access of an operation concerns (Table 4-10); an access of helper lanes alone concerns none. -/
def accLanes (s : State) (o : Op) (a : LaneAcc) : List Nat :=
  match o.kind with
  | .stream j => lineLanes (j.job.act &&& ~~~j.job.help) a.lane
  | _ =>
    let w := (waveAnywhere s o.owner).getD {}
    if o.lane.isNone && !o.once && lane w.hmask (a.lane % 96) then [] else [a.lane % 96]

/-- An open instruction meets the fault, at the lanes whose access got no response. -/
def lostOpen (o : Op) (va : Nat) (ls : List Nat) (s : State) : State :=
  settleAll (modOp o.id (fun p => { p with
    fault := some (lostEntry va)
    faultLanes := if o.once then 0 else ls.foldl (fun m l => m ||| BitVec.twoPow 96 l) 0 }) s)

/-- A helper lane's access without a response reads zero (05 R132). -/
def dropAccs (gone : List LaneAcc) (o : Op) : Op :=
  let keep (a : LaneAcc) : LaneAcc := if gone.contains a then { a with bytes := [] } else a
  { o with
    accs := o.accs.map keep
    kind := match o.kind with
      | .load loc n sg dst accs => .load loc n sg dst (accs.map keep)
      | .stream j => .stream { j with todo := j.todo.filter (fun x => !gone.any (fun a => a.lane == x.key)) }
      | k => k }

/-- A weak store goes on without the lanes that got no response; with none left it is complete, with its entry. -/
def lostStore (o : Op) (cells : List (Nat × Byte)) (gone : List LaneAcc) (s : State) : State :=
  let kept := o.accs.filter (fun a => !gone.contains a)
  let low := lowestEntry (gone.map (fun a => lostEntry a.va))
  let left := cells.filter (fun c => kept.any (fun a => a.bytes.contains c.1))
  let p := { o with kind := .store false left, accs := kept, late := lowerEntry o.late low }
  if left.isEmpty then settleAll (finishOp p s) else modOp o.id (fun _ => p) s

/-- The bytes of an engine's access lie in another module. -/
def placeAway (s : State) (j : CopyJob) (loc : Bool) (need : Need) (a : Nat) : Bool :=
  !loc && match engineXlate s j need a with
    | .ok p => paModule p != s.fab.module
    | .error _ => false

/-- The sectors of a COPY still to be written whose destination or a source lies in another module, each with its lowest such
address. -/
def lostSectors (s : State) (j : CopyJob) : List (Nat × Nat) :=
  let xs := (copyPairs j).filterMap (fun p =>
    if j.written.contains (p.1 / 128) || j.lost.any (fun x => x.1 == p.1 / 32) then none
    else
      let d := placeAway s j j.dstLocal .write p.1
      let q := placeAway s j j.srcLocal .read p.2
      if d && q then some (p.1 / 32, min p.1 p.2) else if d then some (p.1 / 32, p.1) else if q then some (p.1 / 32, p.2) else none)
  ((xs.map (·.1)).eraseDups).map (fun x => (x, ((xs.filter (fun y => y.1 == x)).map (·.2)).foldl min (2 ^ 64)))

/-- The lanes of a LAUNCH whose descriptor, or else a queue's index word that their child needs, lies in another module. -/
def lostChildren (addrs : List (Nat × Nat)) (s : State) : List (Nat × Nat) :=
  let far (a n : Nat) : Bool := match accessPhys s .read a n with
    | .ok ps => ps.any (fun x => paModule x != s.fab.module)
    | .error _ => false
  let ds := addrs.filter (fun x => far x.2 64)
  if !ds.isEmpty then ds
  else
    addrs.filterMap (fun x => match (readChild s x).2 with
      | .ok c => ((childQueue s c).bind (fun q => [q.windex, q.rindex].find? (fun a => far a 8))).map (fun a => (x.1, a))
      | .error _ => none)

/-- A LAUNCH meets the fault at its lanes that got no response. -/
def lostLaunch (o : Op) (addrs : List (Nat × Nat)) (s : State) : State :=
  match lostChildren addrs s with
  | [] => s
  | (l, a) :: rest => modOp o.id (fun p => { p with
      fault := some (lostEntry a)
      faultLanes := ((l, a) :: rest).foldl (fun m x => m ||| BitVec.twoPow 96 x.1) 0 }) s

/-- NOROUTE cause 3 of an operation: imprecise for a weak ST or STLINE and a COPY, precise for every other, an SST among them
(10 R251). -/
def timeoutOp (o : Op) (s : State) : State :=
  let gone := o.accs.filter (away s)
  let hit := gone.filter (fun a => !(accLanes s o a).isEmpty)
  let open' : State := match hit with
    | [] => modOp o.id (dropAccs gone) s
    | a :: _ => lostOpen o a.va (hit.flatMap (accLanes s o)) s
  match o.kind with
  | .store false cells =>
    if 5 ≤ o.done ∨ gone = [] then s else if o.strong || o.once then open' else lostStore o cells gone s
  | .load .. => open'
  | .atomic .. => open'
  | .stream _ => open'
  | .steep _ => open'
  | .stateOut .. => if 5 ≤ o.done then s else open'
  | .launch addrs => settleAll (asAgent o (lostLaunch o addrs) s)
  | .copy j => if 5 ≤ o.done then s else modOp o.id (fun p => { p with kind := .copy { j with lost := j.lost ++ lostSectors s j } }) s
  | _ => s

/-- FABRIC_RESPONSE_TIMEOUT: an operation whose accesses have been sent has no response within 1 ms. -/
def execFabricResponseTimeout (op : Nat) (s : State) : Out :=
  .next (match findOp s op with
    | none => s
    | some o => if o.fault.isSome || !waitsDone s o then s else timeoutOp o s)

end Sys2Proof.Machine
end

