-- ==== Sys2Proof/Machine/Dispatch.lean ====
section
/-!
DEFINITION. The dispatch: one arm per row of the opcode table, each one call of that instruction's meaning.
-/

namespace Sys2Proof.Machine

open Sys2Proof

/-- What an instruction or event does to the module. -/
def exec (i : Instr) (s : State) : Host.Outcome State Fault Refusal :=
  match i with
  | .nop => Sys2Proof.Machine.execNop s
  | .exit => Sys2Proof.Machine.execExit s
  | .waitf f => Sys2Proof.Machine.execWaitf f s
  | .mode a b => Sys2Proof.Machine.execMode a b s
  | .yield => Sys2Proof.Machine.execYield s
  | .trap imm => Sys2Proof.Machine.execTrap imm s
  | .bkpt imm => Sys2Proof.Machine.execBkpt imm s
  | .br inv g off => Sys2Proof.Machine.execBr inv g off s
  | .brsZ n off => Sys2Proof.Machine.execBrsZ n off s
  | .brsNz n off => Sys2Proof.Machine.execBrsNz n off s
  | .jmp off => Sys2Proof.Machine.execJmp off s
  | .call n off => Sys2Proof.Machine.execCall n off s
  | .ret a => Sys2Proof.Machine.execRet a s
  | .jr a b => Sys2Proof.Machine.execJr a b s
  | .jrLink m a b => Sys2Proof.Machine.execJrLink m a b s
  | .jx d a => Sys2Proof.Machine.execJx d a s
  | .joinAt l e off => Sys2Proof.Machine.execJoinAt l e off s
  | .sloop n off => Sys2Proof.Machine.execSloop n off s
  | .tret => Sys2Proof.Machine.execTret s
  | .stime d p => Sys2Proof.Machine.execStime d p s
  | .sysr d n => Sys2Proof.Machine.execSysr d n s
  | .sysw n b => Sys2Proof.Machine.execSysw n b s
  | .smov d p a => Sys2Proof.Machine.execSmov d p a s
  | .smovi d imm => Sys2Proof.Machine.execSmovi d imm s
  | .smovhi d imm => Sys2Proof.Machine.execSmovhi d imm s
  | .sadd d p a b => Sys2Proof.Machine.execSadd d p a b s
  | .ssub d p a b => Sys2Proof.Machine.execSsub d p a b s
  | .smul d p a b => Sys2Proof.Machine.execSmul d p a b s
  | .smulh d p a b => Sys2Proof.Machine.execSmulh d p a b s
  | .smad d p a b => Sys2Proof.Machine.execSmad d p a b s
  | .sdiv d p a b => Sys2Proof.Machine.execSdiv d p a b s
  | .srem d p a b => Sys2Proof.Machine.execSrem d p a b s
  | .sand d p a b => Sys2Proof.Machine.execSand d p a b s
  | .sor d p a b => Sys2Proof.Machine.execSor d p a b s
  | .sxor d p a b => Sys2Proof.Machine.execSxor d p a b s
  | .snot d p a => Sys2Proof.Machine.execSnot d p a s
  | .sshl d p a b => Sys2Proof.Machine.execSshl d p a b s
  | .sshr d p a b => Sys2Proof.Machine.execSshr d p a b s
  | .ssar d p a b => Sys2Proof.Machine.execSsar d p a b s
  | .smin d p a b => Sys2Proof.Machine.execSmin d p a b s
  | .smax d p a b => Sys2Proof.Machine.execSmax d p a b s
  | .sclz d p a => Sys2Proof.Machine.execSclz d p a s
  | .spopc d p a => Sys2Proof.Machine.execSpopc d p a s
  | .sbfe d p a b => Sys2Proof.Machine.execSbfe d p a b s
  | .sbfi d p a b => Sys2Proof.Machine.execSbfi d p a b s
  | .ssel d p a b => Sys2Proof.Machine.execSsel d p a b s
  | .scmpEq d p a b => Sys2Proof.Machine.execScmpEq d p a b s
  | .scmpNe d p a b => Sys2Proof.Machine.execScmpNe d p a b s
  | .scmpLt d p a b => Sys2Proof.Machine.execScmpLt d p a b s
  | .scmpLe d p a b => Sys2Proof.Machine.execScmpLe d p a b s
  | .scmpLtu d p a b => Sys2Proof.Machine.execScmpLtu d p a b s
  | .scmpLeu d p a b => Sys2Proof.Machine.execScmpLeu d p a b s
  | .vadd d a b => Sys2Proof.Machine.execVadd d a b s
  | .vsub d a b => Sys2Proof.Machine.execVsub d a b s
  | .vaddc d a b => Sys2Proof.Machine.execVaddc d a b s
  | .vmul d a b => Sys2Proof.Machine.execVmul d a b s
  | .vmulh d a b => Sys2Proof.Machine.execVmulh d a b s
  | .vmad d a b => Sys2Proof.Machine.execVmad d a b s
  | .vand d a b => Sys2Proof.Machine.execVand d a b s
  | .vor d a b => Sys2Proof.Machine.execVor d a b s
  | .vxor d a b => Sys2Proof.Machine.execVxor d a b s
  | .vnot d a => Sys2Proof.Machine.execVnot d a s
  | .vshl d a b => Sys2Proof.Machine.execVshl d a b s
  | .vshr d a b => Sys2Proof.Machine.execVshr d a b s
  | .vsar d a b => Sys2Proof.Machine.execVsar d a b s
  | .vshf d a b => Sys2Proof.Machine.execVshf d a b s
  | .vmin d a b => Sys2Proof.Machine.execVmin d a b s
  | .vmax d a b => Sys2Proof.Machine.execVmax d a b s
  | .vabs d a => Sys2Proof.Machine.execVabs d a s
  | .vneg d a => Sys2Proof.Machine.execVneg d a s
  | .vcmp c g a b => Sys2Proof.Machine.execVcmp c g a b s
  | .vsel d a b => Sys2Proof.Machine.execVsel d a b s
  | .vclz d a => Sys2Proof.Machine.execVclz d a s
  | .vpopc d a => Sys2Proof.Machine.execVpopc d a s
  | .vbfe d a b => Sys2Proof.Machine.execVbfe d a b s
  | .vbfi d a b => Sys2Proof.Machine.execVbfi d a b s
  | .vbrev d a => Sys2Proof.Machine.execVbrev d a s
  | .vprmt d a b => Sys2Proof.Machine.execVprmt d a b s
  | .vclmulLo d a b => Sys2Proof.Machine.execVclmulLo d a b s
  | .vclmulHi d a b => Sys2Proof.Machine.execVclmulHi d a b s
  | .fadd d a b => Sys2Proof.Machine.execFadd d a b s
  | .fsub d a b => Sys2Proof.Machine.execFsub d a b s
  | .fmul d a b => Sys2Proof.Machine.execFmul d a b s
  | .ffma d a b => Sys2Proof.Machine.execFfma d a b s
  | .fmin d a b => Sys2Proof.Machine.execFmin d a b s
  | .fmax d a b => Sys2Proof.Machine.execFmax d a b s
  | .fcmp c g a b => Sys2Proof.Machine.execFcmp c g a b s
  | .fclass d a => Sys2Proof.Machine.execFclass d a s
  | .frnd d a => Sys2Proof.Machine.execFrnd d a s
  | .frcp d a => Sys2Proof.Machine.execFrcp d a s
  | .frsq d a => Sys2Proof.Machine.execFrsq d a s
  | .fsqrt d a => Sys2Proof.Machine.execFsqrt d a s
  | .fexp2 d a => Sys2Proof.Machine.execFexp2 d a s
  | .flog2 d a => Sys2Proof.Machine.execFlog2 d a s
  | .ftanh d a => Sys2Proof.Machine.execFtanh d a s
  | .hadd2 d a b => Sys2Proof.Machine.execHadd2 d a b s
  | .hmul2 d a b => Sys2Proof.Machine.execHmul2 d a b s
  | .hfma2 d a b => Sys2Proof.Machine.execHfma2 d a b s
  | .cvt d a t j => Sys2Proof.Machine.execCvt d a t j s
  | .cvtpk d a b => Sys2Proof.Machine.execCvtpk d a b s
  | .qswz d a pat => Sys2Proof.Machine.execQswz d a pat s
  | .qbcast d a k => Sys2Proof.Machine.execQbcast d a k s
  | .qdx d a => Sys2Proof.Machine.execQdx d a s
  | .qdy d a => Sys2Proof.Machine.execQdy d a s
  | .vshfl d a b => Sys2Proof.Machine.execVshfl d a b s
  | .vballot d a n => Sys2Proof.Machine.execVballot d a n s
  | .vreadl d a b => Sys2Proof.Machine.execVreadl d a b s
  | .vwritel d a b => Sys2Proof.Machine.execVwritel d a b s
  | .vrand d => Sys2Proof.Machine.execVrand d s
  | .pand g pa pb => Sys2Proof.Machine.execPand g pa pb s
  | .por g pa pb => Sys2Proof.Machine.execPor g pa pb s
  | .pxor g pa pb => Sys2Proof.Machine.execPxor g pa pb s
  | .pnot g pa => Sys2Proof.Machine.execPnot g pa s
  | .pset g a => Sys2Proof.Machine.execPset g a s
  | .kclr k => Sys2Proof.Machine.execKclr k s
  | .kjoin kd ka kb => Sys2Proof.Machine.execKjoin kd ka kb s
  | .kfork kd ks => Sys2Proof.Machine.execKfork kd ks s
  | .kwait k => Sys2Proof.Machine.execKwait k s
  | .fence => Sys2Proof.Machine.execFence s
  | .ksend a ks kr => Sys2Proof.Machine.execKsend a ks kr s
  | .karr k => Sys2Proof.Machine.execKarr k s
  | .kstat d k => Sys2Proof.Machine.execKstat d k s
  | .gbar n k => Sys2Proof.Machine.execGbar n k s
  | .gbarPhase k => Sys2Proof.Machine.execGbarPhase k s
  | .binit a b => Sys2Proof.Machine.execBinit a b s
  | .bexpect a b => Sys2Proof.Machine.execBexpect a b s
  | .barrive a k => Sys2Proof.Machine.execBarrive a k s
  | .bwait a b => Sys2Proof.Machine.execBwait a b s
  | .btest d a b => Sys2Proof.Machine.execBtest d a b s
  | .yieldB d p a b => Sys2Proof.Machine.execYieldB d p a b s
  | .vgive n => Sys2Proof.Machine.execVgive n s
  | .vclaim n => Sys2Proof.Machine.execVclaim n s
  | .xgive n => Sys2Proof.Machine.execXgive n s
  | .xclaim n => Sys2Proof.Machine.execXclaim n s
  | .xmovr v dir x imm n => Sys2Proof.Machine.execXmovr v dir x imm n s
  | .xmovc v dir side x imm n => Sys2Proof.Machine.execXmovc v dir side x imm n s
  | .ld d v b st p k => Sys2Proof.Machine.execLd d v b st p k s
  | .st d v b st p k => Sys2Proof.Machine.execSt d v b st p k s
  | .ldl d v b st p k => Sys2Proof.Machine.execLdl d v b st p k s
  | .stl d v b st p k => Sys2Proof.Machine.execStl d v b st p k s
  | .ldline d v b st p k => Sys2Proof.Machine.execLdline d v b st p k s
  | .stline d v b st p k => Sys2Proof.Machine.execStline d v b st p k s
  | .pref h v b p k => Sys2Proof.Machine.execPref h v b p k s
  | .sld d m b st p k => Sys2Proof.Machine.execSld d m b st p k s
  | .sst d m b st p k => Sys2Proof.Machine.execSst d m b st p k s
  | .launch v b k => Sys2Proof.Machine.execLaunch v b k s
  | .enq b k => Sys2Proof.Machine.execEnq b k s
  | .atomAdd d v b st p k => Sys2Proof.Machine.execAtomAdd d v b st p k s
  | .atomMin d v b st p k => Sys2Proof.Machine.execAtomMin d v b st p k s
  | .atomMax d v b st p k => Sys2Proof.Machine.execAtomMax d v b st p k s
  | .atomAnd d v b st p k => Sys2Proof.Machine.execAtomAnd d v b st p k s
  | .atomOr d v b st p k => Sys2Proof.Machine.execAtomOr d v b st p k s
  | .atomXor d v b st p k => Sys2Proof.Machine.execAtomXor d v b st p k s
  | .atomXchg d v b st p k => Sys2Proof.Machine.execAtomXchg d v b st p k s
  | .atomCas d v b st p k => Sys2Proof.Machine.execAtomCas d v b st p k s
  | .atomInc d v b st p k => Sys2Proof.Machine.execAtomInc d v b st p k s
  | .atomDec d v b st p k => Sys2Proof.Machine.execAtomDec d v b st p k s
  | .atomFadd d v b st p k => Sys2Proof.Machine.execAtomFadd d v b st p k s
  | .mma x a b f k => Sys2Proof.Machine.execMma x a b f k s
  | .mmabAnd x a b f k => Sys2Proof.Machine.execMmabAnd x a b f k s
  | .mmabXor x a b f k => Sys2Proof.Machine.execMmabXor x a b f k s
  | .xscale x f => Sys2Proof.Machine.execXscale x f s
  | .xcvt x a im q fmt => Sys2Proof.Machine.execXcvt x a im q fmt s
  | .xzero x => Sys2Proof.Machine.execXzero x s
  | .tld x side loc f k => Sys2Proof.Machine.execTld x side loc f k s
  | .tst x side loc f k => Sys2Proof.Machine.execTst x side loc f k s
  | .sscan f k => Sys2Proof.Machine.execSscan f k s
  | .ssld f k => Sys2Proof.Machine.execSsld f k s
  | .ssst f k => Sys2Proof.Machine.execSsst f k s
  | .unassignedEncoding word => Sys2Proof.Machine.execUnassignedEncoding word s
  | .powerOn => Sys2Proof.Machine.execPowerOn s
  | .packageReset => Sys2Proof.Machine.execPackageReset s
  | .dieRelease kind n => Sys2Proof.Machine.execDieRelease kind n s
  | .hostPortTrained port rate width => Sys2Proof.Machine.execHostPortTrained port rate width s
  | .guylineLinkReady link => Sys2Proof.Machine.execGuylineLinkReady link s
  | .channelTrainComplete die chan => Sys2Proof.Machine.execChannelTrainComplete die chan s
  | .recoveryPortTimeout => Sys2Proof.Machine.execRecoveryPortTimeout s
  | .recoveryGo => Sys2Proof.Machine.execRecoveryGo s
  | .recoveryVerifyDone => Sys2Proof.Machine.execRecoveryVerifyDone s
  | .recoveryCommit => Sys2Proof.Machine.execRecoveryCommit s
  | .hostConfigRequest port => Sys2Proof.Machine.execHostConfigRequest port s
  | .hostBar2Write off bytes => Sys2Proof.Machine.execHostBar2Write off bytes s
  | .hostBar2Read off len => Sys2Proof.Machine.execHostBar2Read off len s
  | .getVersion => Sys2Proof.Machine.execGetVersion s
  | .getCapabilities => Sys2Proof.Machine.execGetCapabilities s
  | .negotiateAlgorithms version => Sys2Proof.Machine.execNegotiateAlgorithms version s
  | .getDigests => Sys2Proof.Machine.execGetDigests s
  | .getCertificate => Sys2Proof.Machine.execGetCertificate s
  | .challenge nonce => Sys2Proof.Machine.execChallenge nonce s
  | .getMeasurements index => Sys2Proof.Machine.execGetMeasurements index s
  | .keyExchange data => Sys2Proof.Machine.execKeyExchange data s
  | .portFailover => Sys2Proof.Machine.execPortFailover s
  | .takeover => Sys2Proof.Machine.execTakeover s
  | .hostWriteAck op => Sys2Proof.Machine.execHostWriteAck op s
  | .linkFailure link => Sys2Proof.Machine.execLinkFailure link s
  | .moduleUnreachable module => Sys2Proof.Machine.execModuleUnreachable module s
  | .fabricResponseTimeout op => Sys2Proof.Machine.execFabricResponseTimeout op s
  | .reductionContribution group module seq value => Sys2Proof.Machine.execReductionContribution group module seq value s
  | .reductionResult group => Sys2Proof.Machine.execReductionResult group s
  | .reductionTimeout group => Sys2Proof.Machine.execReductionTimeout group s
  | .redCfgWrite group word value => Sys2Proof.Machine.execRedCfgWrite group word value s
  | .intlvWrite value => Sys2Proof.Machine.execIntlvWrite value s
  | .registerWrite off value => Sys2Proof.Machine.execRegisterWrite off value s
  | .ctxCmdNone => Sys2Proof.Machine.execCtxCmdNone s
  | .ctxCreate ctx desc => Sys2Proof.Machine.execCtxCreate ctx desc s
  | .ctxDestroy ctx => Sys2Proof.Machine.execCtxDestroy ctx s
  | .ctxDestroyComplete ctx => Sys2Proof.Machine.execCtxDestroyComplete ctx s
  | .ctxCmdReserved => Sys2Proof.Machine.execCtxCmdReserved s
  | .monitorWake line => Sys2Proof.Machine.execMonitorWake line s
  | .monitorPoll die line => Sys2Proof.Machine.execMonitorPoll die line s
  | .packetTake q => Sys2Proof.Machine.execPacketTake q s
  | .queueResume q => Sys2Proof.Machine.execQueueResume q s
  | .groupPlace q die core => Sys2Proof.Machine.execGroupPlace q die core s
  | .coresidentGridPlace q cores => Sys2Proof.Machine.execCoresidentGridPlace q cores s
  | .continuationPlace handle die core => Sys2Proof.Machine.execContinuationPlace handle die core s
  | .groupComplete => Sys2Proof.Machine.execGroupComplete s
  | .phaseEnd => Sys2Proof.Machine.execPhaseEnd s
  | .phaseSpill => Sys2Proof.Machine.execPhaseSpill s
  | .suspendContext ctx => Sys2Proof.Machine.execSuspendContext ctx s
  | .suspendDrained ctx => Sys2Proof.Machine.execSuspendDrained ctx s
  | .resumeContext ctx => Sys2Proof.Machine.execResumeContext ctx s
  | .preemptGrid ctx queue packet => Sys2Proof.Machine.execPreemptGrid ctx queue packet s
  | .graceExpiry => Sys2Proof.Machine.execGraceExpiry s
  | .fullSave => Sys2Proof.Machine.execFullSave s
  | .xltCmdNone => Sys2Proof.Machine.execXltCmdNone s
  | .xltInvalidateRange ctx size => Sys2Proof.Machine.execXltInvalidateRange ctx size s
  | .xltInvalidateAll ctx => Sys2Proof.Machine.execXltInvalidateAll ctx s
  | .xltCmdReserved => Sys2Proof.Machine.execXltCmdReserved s
  | .xltInvalidateComplete => Sys2Proof.Machine.execXltInvalidateComplete s
  | .memMoveBlock die block tdie tblock => Sys2Proof.Machine.execMemMoveBlock die block tdie tblock s
  | .homeSwitch die block => Sys2Proof.Machine.execHomeSwitch die block s
  | .homeSwitchAck die block agent => Sys2Proof.Machine.execHomeSwitchAck die block agent s
  | .memOfflineDie die => Sys2Proof.Machine.execMemOfflineDie die s
  | .memOnlineDie die => Sys2Proof.Machine.execMemOnlineDie die s
  | .memHealLine => Sys2Proof.Machine.execMemHealLine s
  | .memCmdReserved => Sys2Proof.Machine.execMemCmdReserved s
  | .computeDieLoss die => Sys2Proof.Machine.execComputeDieLoss die s
  | .computeDieRestart die => Sys2Proof.Machine.execComputeDieRestart die s
  | .vdieRemap v phys => Sys2Proof.Machine.execVdieRemap v phys s
  | .mdieRemap v phys => Sys2Proof.Machine.execMdieRemap v phys s
  | .thermalThrottle kind n => Sys2Proof.Machine.execThermalThrottle kind n s
  | .thermalRelease kind n => Sys2Proof.Machine.execThermalRelease kind n s
  | .computeDieOvertemp die => Sys2Proof.Machine.execComputeDieOvertemp die s
  | .memdieOvertemp kind n => Sys2Proof.Machine.execMemdieOvertemp kind n s
  | .coolantFault => Sys2Proof.Machine.execCoolantFault s
  | .coolantRestored => Sys2Proof.Machine.execCoolantRestored s
  | .eccUncorrectable sector => Sys2Proof.Machine.execEccUncorrectable sector s
  | .sliceReadRequest die core line => Sys2Proof.Machine.execSliceReadRequest die core line s
  | .sliceOwnershipRequest die agent line => Sys2Proof.Machine.execSliceOwnershipRequest die agent line s
  | .invalidation die agent line => Sys2Proof.Machine.execInvalidation die agent line s
  | .invalidationAck die line => Sys2Proof.Machine.execInvalidationAck die line s
  | .forward die line => Sys2Proof.Machine.execForward die line s
  | .engineRecall die line => Sys2Proof.Machine.execEngineRecall die line s
  | .evictionNotice die core line => Sys2Proof.Machine.execEvictionNotice die core line s
  | .l1Writeback die core line => Sys2Proof.Machine.execL1Writeback die core line s
  | .l2Eviction die line => Sys2Proof.Machine.execL2Eviction die line s
  | .homeRead agent line => Sys2Proof.Machine.execHomeRead agent line s
  | .homeOwnership agent line => Sys2Proof.Machine.execHomeOwnership agent line s
  | .homeUpgrade agent line => Sys2Proof.Machine.execHomeUpgrade agent line s
  | .homeCleanEviction agent line => Sys2Proof.Machine.execHomeCleanEviction agent line s
  | .homeWriteback agent line => Sys2Proof.Machine.execHomeWriteback agent line s
  | .proxyRequest module kind line bytes => Sys2Proof.Machine.execProxyRequest module kind line bytes s
  | .pageWalkComplete die core ctx va => Sys2Proof.Machine.execPageWalkComplete die core ctx va s
  | .pinRelease die line => Sys2Proof.Machine.execPinRelease die line s
  | .memberPerformed op => Sys2Proof.Machine.execMemberPerformed op s
  | .faultCopyPlaced => Sys2Proof.Machine.execFaultCopyPlaced s
  | .deliveryApply => Sys2Proof.Machine.execDeliveryApply s
  | .remoteKsendDeliver op => Sys2Proof.Machine.execRemoteKsendDeliver op s
  | .ksendAckTimeout op => Sys2Proof.Machine.execKsendAckTimeout op s
  | .engineEntryIssue chain => Sys2Proof.Machine.execEngineEntryIssue chain s
  | .copyPerformed op => Sys2Proof.Machine.execCopyPerformed op s
  | .arrivalCounted op => Sys2Proof.Machine.execArrivalCounted op s
  | .swapEligible die core slot => Sys2Proof.Machine.execSwapEligible die core slot s
  | .forcedSwap die core slot => Sys2Proof.Machine.execForcedSwap die core slot s
  | .activeSetFill die core slot => Sys2Proof.Machine.execActiveSetFill die core slot s
  | .ejectThreadStart lane => Sys2Proof.Machine.execEjectThreadStart lane s
  | .laneRejoin => Sys2Proof.Machine.execLaneRejoin s
  | .laneRecall lane => Sys2Proof.Machine.execLaneRecall lane s
  | .rejoinSoftLimit => Sys2Proof.Machine.execRejoinSoftLimit s
  | .rejoinHardLimit => Sys2Proof.Machine.execRejoinHardLimit s
  | .claimGrant => Sys2Proof.Machine.execClaimGrant s
  | .claimlock slot => Sys2Proof.Machine.execClaimlock slot s
  | .loadDataReturn op => Sys2Proof.Machine.execLoadDataReturn op s
  | .matrixBeatWrite op => Sys2Proof.Machine.execMatrixBeatWrite op s
  | .tileFetchArrival op => Sys2Proof.Machine.execTileFetchArrival op s
  | .stateSpaceComplete op => Sys2Proof.Machine.execStateSpaceComplete op s
  | .launchEnqueueComplete op => Sys2Proof.Machine.execLaunchEnqueueComplete op s
  | .haltComplete => Sys2Proof.Machine.execHaltComplete s
  | .powerRemoval => Sys2Proof.Machine.execPowerRemoval s
  | .hostPortDlDown port => Sys2Proof.Machine.execHostPortDlDown port s

end Sys2Proof.Machine
end

