-- ==== Sys2Proof/Machine/Events.lean ====
section
/-!
DEFINITION. The events of one access, one at a time: a load, a store, an atomic or a state-space instruction that spans several sectors
or lines may take place in part before the rest of it (10 R246, R247; log 44).
-/

namespace Sys2Proof.Machine

open Sys2Proof

/-! ## Which bytes form one event (R246) -/

/-- The accesses of an operation, lane by lane. -/
def opAccs (o : Op) : List LaneAcc :=
  match o.kind with
  | .load _ _ _ _ accs => accs
  | .store true _ => o.locAccs
  | _ => o.accs

/-- One access is the whole line: LDLINE, STLINE, or a row of a tile. -/
def lineAccess (xs : List LaneAcc) (l : Nat) : Bool := xs.any (fun a => a.bytes.length == 128 && a.bytes.head? == some (128 * l))

/-- The 32 lanes of a beat, with 4 bytes each, cover exactly the line. -/
def beatCovers (xs : List LaneAcc) (l beat : Nat) : Bool :=
  let ys := xs.filter (fun a => a.lane / 32 == beat)
  let as := ys.flatMap (·.bytes)
  ys.length == 32 && ys.all (fun a => a.bytes.length == 4) && (List.range 128).all (fun i => as.contains (128 * l + i))

/-- The bytes of an operation in a line form one event; those of an atomic and of a state-space instruction never do. -/
def wholeLine (o : Op) (l : Nat) : Bool :=
  match o.kind with
  | .atomic .. => false
  | .steep _ => false
  | .stateOut .. => false
  | _ => lineAccess (opAccs o) l || (List.range 3).any (beatCovers (opAccs o) l)

/-- Place x belongs to the event of place a: the same line, or else the same sector. -/
def sameEvent (o : Op) (a x : Nat) : Bool := if wholeLine o (a / 128) then x / 128 == a / 128 else x / 32 == a / 32

/-! ## One event -/

/-- The bytes of one event of a load are bound, where their check values are good and their lines can be served. -/
def bindEvent (o : Op) (loc : Bool) (as : List Nat) (s : State) : State :=
  match if loc then some s else fillFor s o as with
  | none => s
  | some t =>
    let v := loadView t o
    if (accPoison v loc { lane := 0, va := 0, bytes := as }).isSome then s
    else modOp o.id (fun p => { p with got := p.got ++ as.map (fun x => (x, placeRead v loc x)) }) t

/-- The places of one event of a load that are not bound yet. -/
def eventPlaces (o : Op) (accs : List LaneAcc) (a : Nat) : List Nat :=
  (((accs.map (unbound o.got)).flatMap (·.bytes)).filter (sameEvent o a)).eraseDups

/-- One event of a store is performed and the rest is still in flight. -/
def storeEvent (o : Op) (loc : Bool) (now rest : List (Nat × Byte)) (s : State) : State :=
  let left := modOp o.id (fun p => { p with kind := .store loc rest, got := p.got ++ now })
  if loc then left (modGroup o.owner (fun g => locStore g now) s)
  else
    match storeWrite o now s with
    | none => s
    | some t => left t

/-- A store may perform these cells now: it is accepted, and nothing earlier stands in the way. -/
def storeFree (s : State) (o : Op) (loc : Bool) (now : List (Nat × Byte)) : Bool :=
  inOrder s blocksWrite { o with kind := .store loc now } &&
    (loc || (o.done != 0 && decide (o.done < 5) && (now.findSome? (fun c => noroute s c.1)).isNone))

/-- One event of an atomic: the lanes of one sector, once every sector is verified. -/
def atomicEvent (o : Op) (op : AtomOp) (n : Nat) (signed : Bool) (rm : Nat) (fl : Bool) (d : Nat)
    (items now rest : List AtomItem) (s : State) : State :=
  if atomicBad s o items ≠ [] then s
  else
    match writeFor s o (now.map (·.addr)) with
    | none => s
    | some t =>
      let r := applyItems op n signed rm fl now t
      modOp o.id (fun p => { p with kind := .atomic op n signed rm fl d rest, olds := p.olds ++ r.2.1, raised := p.raised ||| r.2.2 }) r.1

/-- In the group of an operation, in the view of its wave where that is resident. -/
def withOwner (o : Op) (f : State → State) (s : State) : State := if resident s o.owner then withWave o.owner f s else f s

/-- The event of an operation that holds place a takes place before the others. The last event of a store or an atomic is that of its
row (MEMBER_PERFORMED, LOAD_DATA_RETURN), which also ends it. -/
def opAccessEvent (o : Op) (a : Nat) (s : State) : State :=
  match o.kind with
  | .load loc size signed dst accs =>
    let as := eventPlaces o accs a
    let part := { o with kind := .load loc size signed dst [{ lane := 0, va := 0, bytes := as }] }
    if as ≠ [] && inOrder s blocksLoad part && queueOrdered s part then withOwner o (bindEvent o loc as) s else s
  | .store loc cells =>
    let now := cells.filter (fun c => sameEvent o a c.1)
    let rest := cells.filter (fun c => !sameEvent o a c.1)
    if now ≠ [] && rest ≠ [] && storeFree s o loc now then withOwner o (storeEvent o loc now rest) s else s
  | .atomic op n signed rm fl d items =>
    let now := items.filter (fun x => sameEvent o a x.addr)
    let rest := items.filter (fun x => !sameEvent o a x.addr)
    if now ≠ [] && rest ≠ [] && inOrder s blocksWrite { o with kind := .atomic op n signed rm fl d now } then
      withOwner o (atomicEvent o op n signed rm fl d items now rest) s
    else s
  | .steep _ | .stateOut .. => steepEvent o a s
  | _ => s

/-- One event of an access in flight takes place by itself. -/
def accessEvent (op a : Nat) (s : State) : State :=
  match findOp s op with
  | none => s
  | some o => if o.fault.isNone && waitsDone s o then opAccessEvent o a s else s

end Sys2Proof.Machine
end

