-- ==== Sys2Proof/Machine/Run.lean ====
section
/-!
DEFINITION. One turn of the wave in focus or of one of its ejected lanes: reconvergence, entry, and the issue of one
instruction (13 R313; 06 R155, R159; 10 R249, R250); and what moves when the focus cannot (log 1).
-/

namespace Sys2Proof.Machine

open Sys2Proof

/-- Held outcome of an instruction. -/
def heldOut (s : State) (o : Out) : Out :=
  match o with
  | .next t => .next (heldTrap s t)
  | .fault r => .fault r
  | .refused r => .refused r

/-- An agent that waited for a strong operation or for its open instructions goes on; other waits end in the
instruction that waits. -/
def resume (s : State) : State :=
  match s.w.status with
  | .waiting (.strong _) => wake s
  | .waiting .interlock => wake s
  | .waiting .rejoin => wake s
  | _ => s

/-- The outcome of an instruction that issued: its wave is the youngest of its slot (04 R104), unless a fault of it still waits. -/
def issued (h : BitVec 64) (o : Out) : Out :=
  match o with
  | .next t => .next (if t.w.status = .waiting .interlock then t else noteIssue h t)
  | .fault r => .fault r
  | .refused r => .refused r

/-- Issue the word at pc of the clause that runs, if it may issue. -/
def issueWord (s : State) (c : Clause) : Option Out :=
  match wordAt s c with
  | .error t => some (.next (heldTrap s (takeTrap t s)))
  | .ok w => if canIssue s (instrOf w) then some (issued s.w.handle (heldOut s (exec (instrOf w) (noteReads s (instrOf w))))) else none

/-- The wave's next instruction: a window violation of a recalled lane is taken first (06 R160). -/
def issueWave (s : State) (c : Clause) : Option Out :=
  match windowDue s with
  | some x => some (.next (heldTrap s (takeWindow x s)))
  | none => issueWord s c

/-- The trap of what a push met at a recall, due at the wave's next instruction outside trap mode (06 R165). -/
def stackTrap (w : Wave) : Option Trap :=
  if w.trap.on then none else w.stackDue.map (fun e => { cause := e.cause, detail := e.detail, addr := e.addr })

/-- A turn of the wave in focus, with nothing to wait for. -/
def turnReady (s : State) : Option Out :=
  match stackTrap s.w with
  | some t => some (.next (heldTrap s (takeTrap t { s with w := { s.w with stackDue := none } })))
  | none =>
  if curRpc s.w = some s.w.pc then some (.next (reconvergeStep s))
  else
    match running s with
    | some c => issueWave s c
    | none =>
      match approach s with
      | .error t => some (.next (heldTrap s (takeTrap t (fellTaken s))))
      | .ok s1 =>
        match running s1 with
        | none => some (.next s1)
        | some c => if curRpc s1.w = some s1.w.pc then some (.next s1) else some ((issueWave s1 c).getD (.next s1))

/-- The wave in focus may take a turn: it is the oldest ready one of its slot (04 R104), its die's issue is not gated (01 R42), the
lines of its stack spill area and of the code it enters can be served. -/
def turnFree (s : State) : Bool :=
  runnable s && mayIssue s && !issueGated s && areaFree s && ((running s).isSome || fetchFree s)

/-- An outcome that waits for a line or a translation is none yet (log 12). -/
def served (o : Option Out) : Option Out :=
  match o with
  | some (.next t) => if stalls t then none else o
  | _ => o

/-- A turn of the wave in focus; none where it cannot move. -/
def waveTurn (s : State) : Option Out := if turnFree s then served (turnReady (resume s)) else none

/-! ## Ejected lanes -/

/-- The outcome of a lane's turn, given what its view came to. -/
def laneOutcome (s : State) (e : EjLane) (o : Out) : Out :=
  match o with
  | .next t => .next (if t.w.laneFault then recallLane e s else laneBack s e t)
  | .fault r => .fault r
  | .refused r => .refused r

/-- Issue a lane's word: on its core, or by recalling it (06 Table 6-3). -/
def issueLane (s : State) (e : EjLane) (v : State) (c : Clause) : Option Out :=
  match wordAt v c with
  | .error t => some (laneOutcome s e (.next (heldTrap v (takeTrap t v))))
  | .ok w =>
    let i := instrOf w
    match laneClass (regUse v i) i (8 * e.live) with
    | .recalls => if laneQuiet s e then some (.next (recallLane e s)) else none
    | .window r => if laneQuiet s e then some (.next (recallWindow e r s)) else none
    | .runs => if canIssue v i then some (laneOutcome s e (heldOut v (exec i (noteReads v i)))) else none

/-- A lane that met the end of a terminal clause, or no clause, is recalled, and takes ILLOP in the wave (13 R329; 06 R160). -/
def laneFell (e : EjLane) (t : Trap) (o : Out) : Out :=
  match o with
  | .next u => .next (
    if t.cause = causeIllop ∧ t.detail = 2 ∧ !u.w.ejected.any (fun x => x.lane == e.lane) then
      { u with w := { u.w with fell := u.w.fell ++ [(BitVec.twoPow 96 e.lane, e.pc)] } }
    else u)
  | o => o

/-- A turn of a lane that is not at its reconvergence address. -/
def laneReady (s : State) (e : EjLane) (v : State) : Option Out :=
  match running v with
  | some c => issueLane s e v c
  | none =>
    match approach v with
    | .error t => some (laneFell e t (laneOutcome s e (.next (heldTrap v (takeTrap t v)))))
    | .ok v1 =>
      match running v1 with
      | none => some (.next (laneBack s e v1))
      | some c => if v1.w.pc = e.rpc then some (.next (laneBack s e v1)) else
        some ((issueLane s (laneAfter e v1.w) v1 c).getD (.next (laneBack s e v1)))

/-- The wave's group is halted, and with it the ejected lanes (04 R121). -/
def waveStopped (w : Wave) : Bool := w.status == .halted || w.status == .stopped

/-- An ejected lane may take a turn: it has started, is on its way, no recall without room keeps it, its wave is not stopped, and neither
its die's issue nor the lines that it needs, and those of a recall, keep it back. -/
def laneFree (s : State) (e : EjLane) : Bool :=
  let v := laneView s e
  e.started && !e.stuck && e.pc != e.rpc && !waveStopped s.w && !issueGated s && areaReady s && runnable v && ((running v).isSome || fetchFree v)

/-- What an ejected lane does next; none where it cannot move. -/
def laneTurn (s : State) (e : EjLane) : Option Out :=
  if laneFree s e then served (laneReady s e (resume (laneView s e))) else none

/-- The Bivouac core of a lane of the wave in focus. -/
def laneCore (s : State) (e : EjLane) : Nat := s.g.die * 16 + e.thread / 4

/-- How far a thread's turn is from that of the next thread of its core (06 R158). -/
def turnGap (s : State) (e : EjLane) : Nat := (e.thread + 4 - Tab.get 0 s.bivTurn (laneCore s e) % 4) % 4

/-- No other thread of the lane's core that could move comes before it in turn: a core takes its four threads in turn and skips those
that wait (06 R158). -/
def laneFirst (s : State) (e : EjLane) : Bool :=
  ((allGroups s).filter (fun g => g.die == s.g.die)).all (fun g => g.peers.all (fun w => w.ejected.all (fun x =>
    !(x.thread / 4 == e.thread / 4 && decide (turnGap s x < turnGap s e) && (laneTurn (focusOn w.handle s) x).isSome))))

/-- The core's turn goes on to the thread after the lane's. -/
def noteThread (s : State) (e : EjLane) (o : Out) : Out :=
  match o with
  | .next t => .next { t with bivTurn := Tab.put 0 t.bivTurn (laneCore s e) ((e.thread + 1) % 4) }
  | o => o

/-- A turn of an ejected lane, when it is its thread's. -/
def laneTake (s : State) (e : EjLane) : Option Out := if laneFirst s e then (laneTurn s e).map (noteThread s e) else none

/-- A turn of the lane with a number. -/
def laneTurnOf (s : State) (l : Nat) : Option Out :=
  (s.w.ejected.find? (fun e => e.lane == l)).bind (laneTake s)

/-! ## What moves when the focus cannot (log 1) -/

/-- The first lane that can move, starting a thread where none can. -/
def anyLane (s : State) : Option Out :=
  match s.w.ejected.findSome? (laneTake s) with
  | some o => some o
  | none =>
    match s.w.ejected.find? (fun e => !e.started) with
    | some e => some (execEjectThreadStart e.lane s)
    | none => none

/-- What is in flight and can go on: the oldest operation, a chain, what waves have pending, or a line. -/
def anyOp (s : State) : Option Out :=
  (s.ops.findSome? (progressEvent s)).or ((s.chains.findSome? (chainEvent s)).or ((focusEvent s).or (moduleEvent s)))

/-- The focus on the first other wave that can move, itself or by a lane of it. -/
def anyWave (s : State) : Option Out :=
  ((allWaves s).find? (fun w =>
    let t := focusOn w.handle s
    w.handle != s.w.handle && ((waveTurn t).isSome || t.w.ejected.any (fun e => !e.started || (laneTake t e).isSome)))).map
    (fun w => .next (focusOn w.handle s))

/-- One step without input: the wave in focus, or an operation in flight, or a lane, or another wave, or a swap; nothing where
nothing can move. -/
def autoStep (s : State) : Out :=
  match waveTurn s with
  | some o => o
  | none =>
    match anyOp s with
    | some o => o
    | none =>
      match anyLane s with
      | some o => o
      | none => ((anyWave s).or (swapEvent s)).getD (.next s)

/-! ## Input -/

/-- The row is an event of another agent: it has no word, so the outside may raise it. -/
def isEvent : Instr → Bool
  | .unassignedEncoding _ => false
  | i => (encode i).isNone

/-- The events that a module without power answers (01 R26). -/
def answersUnpowered : Input → Bool
  | .event .powerOn => true
  | _ => false

/-- What is done while accesses to other modules get no response (02 R55). -/
def unanswered (f : State → Out) (s : State) : Out :=
  match f { s with fab := { s.fab with silent := true } } with
  | .next t => .next { t with fab := { t.fab with silent := false } }
  | o => o

/-- A turn of the wave in focus, or of a lane of it, that is taken now. -/
def turnNow (lane : Option Nat) (s : State) : Out :=
  (match lane with
    | none => waveTurn s
    | some l => laneTurnOf s l).getD (.next s)

/-- One step that takes an input. -/
def inputStep (x : Input) (s : State) : Out :=
  match x with
  | .event i => if isEvent i then exec i s else .next s
  | .turn h => .next (focusOn h s)
  | .laneTurn l => turnNow (some l) s
  | .readRegister port off => .next (readRegister port off s)
  | .readConfig port reg => .next (readConfig port reg s)
  | .resizeBar2 n => .next (resizeBar2 n s)
  | .keyStream n => .next (keyStream n s)
  | .msixAck => .next (ackMsix s)
  | .functionLate f n => .next (functionLate f n s)
  | .functionUp f n => .next (functionUp f n s)
  | .eccCorrected kind n chan => .next (eccCorrected kind n chan s)
  | .eccLocal h sector => .next (eccLocal h sector s)
  | .ksendIn name slot faults =>
    .next (match deliverIn name slot faults s with
      | some t => settleAll t
      | none => s)
  | .proxyInvalidate line bytes poisoned => .next (proxyInvalidate line bytes poisoned s)
  | .proxyAnswer m line bytes poisoned keeps => .next (proxyAnswer m line bytes poisoned keeps s)
  | .proxyForward line => .next (proxyForward line s)
  | .accessEvent op a => .next (accessEvent op a s)
  | .walkBegins die ctx va => .next (walkBegins die ctx va s)
  | .unansweredTurn lane => unanswered (turnNow lane) s
  | .unansweredEvent i => unanswered (fun t => if isEvent i then exec i t else .next t) s

/-- What every step ends with, of whatever kind: the reads of walks that ended in a fault, and the slots' sets. What waits for a line or
a translation has not taken place (log 12). -/
def settledOut (s : State) (o : Out) : Out :=
  match o with
  | .next t =>
    let u := endWalks t
    .next (afterTurn (if u.coh.stalled then s else u))
  | .fault r => .fault r
  | .refused r => .refused r

/-- One step of the module. -/
def moduleStep (s : State) : Out :=
  match s.inputs with
  | x :: rest =>
    if s.pkg.power || answersUnpowered x then settledOut { s with inputs := rest } (inputStep x { s with inputs := rest }) else .fault .noPower
  | [] => if s.pkg.power then settledOut s (autoStep s) else .fault .noPower

end Sys2Proof.Machine
end

