-- ==== Sys2Proof/Machine/Step.lean ====
section
/-!
DEFINITION. One step of the module, and the placing of one instruction to be fetched next.
-/

namespace Sys2Proof.Machine

open Sys2Proof

/-- One step: an input, or the agent in focus, or an operation in flight (log 1). -/
def step (s : State) : Host.Outcome State Fault Refusal := moduleStep s

/-- s with the word of an instruction placed where step fetches next (log 10). A row is one 32-bit word. -/
def State.withFetchWord (s : State) (nbits w : Nat) : State := placeWord s (BitVec.ofNat 32 (w % 2 ^ nbits))

end Sys2Proof.Machine
end

