-- ==== Sys2Proof/Safety.lean ====
section
/-!
DEFINITION. What counts as a safe state: memory in its canonical form.
-/

namespace Sys2Proof.Machine

open Sys2Proof

/-- Memory is in its canonical form: addresses rise and no entry equals what an unlisted address reads as. -/
def Memory.wf (m : Mem) : Bool := Tab.wf 0 m.cells && Tab.wf 0 m.dev && Tab.wf [] m.stale

end Sys2Proof.Machine
end

