-- ==== Sys2Proof/Certificates/Slice0/Claims.lean ====
section
/-!
DEFINITION. The vocabulary of the statements: what an instruction needs to read its operands, and what a next state
holds and leaves alone. Each frame equates the whole state but for the fields it names, so memory, and every register
not named, is unchanged byte for byte.
-/

namespace Sys2Proof.Claims

open Sys2Proof Sys2Proof.Machine

/-- The instruction answers a next state that has a property. -/
def goes (i : Instr) (s : State) (post : State → Prop) : Prop := ∃ t, exec i s = .next t ∧ post t

/-! ## Scalar registers (05 R130, R134, R135; 14 R344, R345) -/

/-- What register n reads as once v has been written to it: s63 ignores writes, and the mask words s60-s62 keep the
bits of ejected lanes zero (R130). -/
def regAfter (s : State) (n : Nat) (v : Word) : Word :=
  if n = 63 then 0 else if 60 ≤ n then v &&& ~~~(maskWord (ejectedMask s.w) (n - 60)) else v

/-- s goes to t by writing v to sd, or to the pair, setting sticky flags f and going on to the next word; every other
scalar register, and everything else in the state, stays. -/
def writesScalar (s t : State) (d : Nat) (p : Bool) (v : BitVec 64) (f : Word) : Prop :=
  t = { s with w := { s.w with sreg := t.w.sreg, pc := s.w.pc + 4, astat := s.w.astat ||| f } } ∧
  sget t d = regAfter s d (v.extractLsb' 0 32) ∧
  (p = true → sget t (d + 1) = regAfter s (d + 1) (v.extractLsb' 32 32)) ∧
  ∀ n, n ≠ d → (p = true → n ≠ d + 1) → sget t n = sget s n

/-- The instruction completes by writing v to sd with flags f. -/
def scalarGives (s : State) (i : Instr) (d : BitVec 6) (p : Bool) (v : BitVec 64) (f : Word) : Prop :=
  goes i s (fun t => writesScalar s t d.toNat p v f)

/-- Some lane is in the mask, the source codes are those of format S, and pairs are even (R344, R350, R135). -/
abbrev scalarReady (s : State) (d : BitVec 6) (p : Bool) (codes : List Src) : Prop :=
  em s ≠ 0 ∧ codes.all srcScalarOk = true ∧ codes.all (srcEven p) = true ∧ (p = true → d.toNat % 2 = 0)

/-- The old value of sd, or of its pair. -/
def oldScalar (s : State) (d : BitVec 6) (p : Bool) : BitVec 64 :=
  if p then sget64 s d.toNat else (sget s d.toNat).setWidth 64

/-- The width W of Table 14-3. -/
def scalarW (p : Bool) : Nat := if p then 64 else 32

/-- The operands are signed: the captured type is I32, I64, I16 or I8 (R344). -/
def signedType (s : State) : Bool := ty s == 0x1 || ty s == 0x3 || ty s == 0x6 || ty s == 0x9

/-- The integer that a W-bit operand stands for. -/
def intValue (p sg : Bool) (x : BitVec 64) : Int :=
  if sg then (if p then x.toInt else (x.setWidth 32).toInt) else (if p then (x.toNat : Int) else ((x.setWidth 32).toNat : Int))

/-- Least and greatest integer of w bits. -/
def least (w : Nat) (sg : Bool) : Int := if sg then -(2 ^ (w - 1)) else 0
def greatest (w : Nat) (sg : Bool) : Int := if sg then 2 ^ (w - 1) - 1 else 2 ^ w - 1

/-- The nearest integer of w bits to x (R345). -/
def clampTo (w : Nat) (sg : Bool) (x : Int) : Int := max (least w sg) (min (greatest w sg) x)

/-- The instruction completes with the clamped result, and SAT when it clamps (R345). -/
def scalarClamps (s : State) (i : Instr) (d : BitVec 6) (p : Bool) (x : Int) : Prop :=
  scalarGives s i d p (BitVec.ofInt 64 (clampTo (scalarW p) (signedType s) x))
    (if clampTo (scalarW p) (signedType s) x = x then 0 else 0x20)

/-- Bit j of the field of length n at position p of a W-bit value (R352). -/
def fieldBit (w : Nat) (sg : Bool) (a : BitVec 64) (p j : Nat) : Bool :=
  if p + j < w then a.getLsbD (p + j) else sg && a.getLsbD (w - 1)

/-! ## Vector registers (05 R134, R136; 14 R342, R343) -/

/-- Some lane is in the mask, no code is reserved, the type is accepted, and the wave holds every vector register named
(R343, R348). -/
abbrev vectorReady (s : State) (typeOk : Bool) (codes : List Src) (held : List Nat) : Prop :=
  em s ≠ 0 ∧ codes.all srcNotReserved = true ∧ typeOk = true ∧ codes.all (srcHeld s) = true ∧ held.all (vHeld s) = true

/-- s goes to t by writing vector register d in the lanes of m, setting sticky flags f and going on to the next word;
the other lanes and rows, and everything else in the state, stay. -/
def writesVector (s t : State) (d : Nat) (m : LaneMask) (f : Word) : Prop :=
  t = { s with w := { s.w with vreg := t.w.vreg, trap := { s.w.trap with tv := t.w.trap.tv }, pc := s.w.pc + 4,
                               astat := s.w.astat ||| f } } ∧
  (if s.w.trap.on = true ∧ 112 ≤ d then t.w.vreg = s.w.vreg else t.w.trap.tv = s.w.trap.tv) ∧
  (∀ l, l < 96 → lane m l = false → vget t d l = vget s d l) ∧
  ∀ n, n ≠ d → vrow t n = vrow s n

/-- The instruction completes with the word v l in every lane l of the active and helper lanes (R343), and with the
flags of the active non-helper lanes (05 R143). -/
def laneGives (s : State) (i : Instr) (d : BitVec 7) (v : Nat → Word) (f : Word) : Prop :=
  goes i s (fun t => writesVector s t d.toNat (activeMask s) f ∧
    ∀ l, l < 96 → lane (activeMask s) l = true → vget t d.toNat l = v l)

/-- The instruction completes with the first part of f in each lane, and with the flags that the second parts of the active
non-helper lanes give together. -/
def floatGives (s : State) (i : Instr) (d : BitVec 7) (f : Nat → Nat × Word) : Prop :=
  laneGives s i d (fun l => BitVec.ofNat 32 (f l).1) (laneFlags (nonHelperMask s) (fun l => (f l).2))

/-- The instruction completes with op of the matching elements of a, b and the old vd in every element of every active
and helper lane (R343), and sets no flag. -/
def elementsGive (s : State) (i : Instr) (d : BitVec 7) (a b : Src) (op : Nat → Nat → Nat → Nat) : Prop :=
  goes i s (fun t => writesVector s t d.toNat (activeMask s) 0 ∧
    ∀ l, l < 96 → lane (activeMask s) l = true → ∀ k, k < elemCount (ty s) →
      elemAt (elemWidth (ty s)) (vget t d.toNat l).toNat k =
        op (elemAt (elemWidth (ty s)) (srcLane s (ty s) a l).toNat k) (elemAt (elemWidth (ty s)) (srcLane s (ty s) b l).toNat k)
          (elemAt (elemWidth (ty s)) (vget s d.toNat l).toNat k))

/-- Some element of some active non-helper lane is clamped: its exact result is outside the element type. -/
def someClamped (s : State) (d : BitVec 7) (a b : Src) (exact : Int → Int → Int → Int) : Prop :=
  ∃ l k, l < 96 ∧ lane (nonHelperMask s) l = true ∧ k < elemCount (ty s) ∧
    let w := elemWidth (ty s)
    let v (x : Word) : Int := Alu.val w (Sys2Proof.Num.intSigned (ty s)) (elemAt w x.toNat k)
    let r := exact (v (srcLane s (ty s) a l)) (v (srcLane s (ty s) b l)) (v (vget s d.toNat l))
    clampTo w (Sys2Proof.Num.intSigned (ty s)) r ≠ r

/-- The instruction completes with the clamped exact result of the matching elements, and sets SAT exactly when an
element of an active non-helper lane is clamped (R345, 05 R143). -/
def elementsClamp (s : State) (i : Instr) (d : BitVec 7) (a b : Src) (exact : Int → Int → Int → Int) : Prop :=
  goes i s (fun t => ∃ f : Word, writesVector s t d.toNat (activeMask s) f ∧
    (f = 0 ∨ f = 0x20) ∧ (f = 0x20 ↔ someClamped s d a b exact) ∧
    ∀ l, l < 96 → lane (activeMask s) l = true → ∀ k, k < elemCount (ty s) →
      let w := elemWidth (ty s)
      let v (x : Word) : Int := Alu.val w (Sys2Proof.Num.intSigned (ty s)) (elemAt w x.toNat k)
      v (vget t d.toNat l) = clampTo w (Sys2Proof.Num.intSigned (ty s))
        (exact (v (srcLane s (ty s) a l)) (v (srcLane s (ty s) b l)) (v (vget s d.toNat l))))

/-! ## Predicates (05 R134; 14 R355, R367) -/

/-- s goes to t by writing predicate g in the active and helper lanes with p; a write to g0 is ignored; the other lanes,
the other predicates and everything else in the state stay. -/
def writesPredicate (s t : State) (g : Nat) (p : Nat → Bool) : Prop :=
  t = { s with w := { s.w with pred := t.w.pred, pc := s.w.pc + 4 } } ∧
  (g ≠ 0 → ∀ l, l < 96 → lane (pget t g) l = if lane (activeMask s) l then p l else lane (pget s g) l) ∧
  ∀ n, n ≠ g ∨ n = 0 → pget t n = pget s n

/-- The instruction completes by writing predicate g. -/
def predicateGives (s : State) (i : Instr) (g : BitVec 3) (p : Nat → Bool) : Prop :=
  goes i s (fun t => writesPredicate s t g.toNat p)

/-! ## Control (14 R368-R372) -/

/-- The wave goes on to the next word, and nothing else changes. -/
def goesOn (s : State) : State := { s with w := { s.w with pc := s.w.pc + 4 } }

/-- The wave enters code at pc (13 R313), and nothing else changes. -/
def jumps (s : State) (pc : Pc) : State := { s with w := { s.w with pc := pc, clause := none } }

/-- The target of a word offset: the next word plus four times the offset (R368). -/
def branchTarget (s : State) (off : Int) : Pc := s.w.pc + 4 + BitVec.ofInt 56 (4 * off)

/-- The code address in the low 56 bits of a register, bits [1:0] taken as zero (R368). -/
def codeAddr (t : BitVec 64) : Pc := t.setWidth 56 &&& 0xFFFFFFFFFFFFFC

/-- s goes to t by writing pc + 4, zero-extended, to the pair at m and entering code at pc. -/
def linksAndJumps (s t : State) (m : Nat) (pc : Pc) : Prop :=
  t = { s with w := { s.w with sreg := t.w.sreg, pc := pc, clause := none } } ∧
  sget t m = regAfter s m ((s.w.pc + 4).extractLsb' 0 32) ∧
  sget t (m + 1) = regAfter s (m + 1) (((s.w.pc + 4).extractLsb' 32 24).setWidth 32) ∧
  ∀ n, n ≠ m → n ≠ m + 1 → sget t n = sget s n

/-- s goes to t with the mask m in em0-em2, where the lanes that are ejected stay out, and every other scalar register
unchanged. -/
def masksTo (s t : State) (m : LaneMask) : Prop :=
  em t = m &&& ~~~(ejectedMask s.w) ∧ ∀ n, (n < 60 ∨ 62 < n) → sget t n = sget s n

/-! ## Memory and registers together -/

/-- Every byte of global memory and of the group's local memory reads as before. -/
def keepsMemory (s t : State) : Prop := (∀ a, memByte t a = memByte s a) ∧ ∀ a, locByte t.g a = locByte s.g a

/-- Every byte of local memory outside the n bytes at a, and every byte of global memory, reads as before. -/
def storesLocal (s t : State) (a n : Nat) : Prop :=
  (∀ x, memByte t x = memByte s x) ∧ ∀ x, x < a ∨ a + n ≤ x → locByte t.g x = locByte s.g x

/-- The wave's registers, flags, masks, trap state and stack stay: all but its pc, status, keys and completion flags. -/
def keepsRegisters (s t : State) : Prop :=
  t.w.sreg = s.w.sreg ∧ t.w.vreg = s.w.vreg ∧ t.w.pred = s.w.pred ∧ t.w.tile = s.w.tile ∧ t.w.side = s.w.side ∧
  t.w.mode = s.w.mode ∧ t.w.astat = s.w.astat ∧ t.w.hmask = s.w.hmask ∧ t.w.rand = s.w.rand ∧ t.w.role = s.w.role ∧
  t.w.trap = s.w.trap ∧ t.w.stack = s.w.stack ∧ t.w.vblocks = s.w.vblocks ∧ t.w.tiles = s.w.tiles

/-! ## Keys and barriers (09, 10, 15) -/

/-- Some lane of the mask is no helper lane, and the agent is not in the middle of a wait. -/
abbrev actsOnce (s : State) : Prop := someNonHelper s = true ∧ s.w.status = .ready

/-- A consume of key k at a scope is satisfied: no fault entry is due at it, and its members are performed there (10 R248). -/
abbrev consumeMet (s : State) (k sc : Nat) : Prop :=
  entryToTake s.w (some k) (membersOf s s.w k) = none ∧ ∀ id ∈ membersOf s s.w k, performedAt s s.w sc id = true

/-- The wave goes on to the next word, ready. -/
def goesOnReady (s : State) : State := { s with w := { s.w with pc := s.w.pc + 4, status := .ready } }

/-- How often slot n is named among nonzero slots that close. -/
def timesClosed (n : Nat) (ks : List Nat) : Nat := if n = 0 then 0 else ks.count n

/-- The key file after slots ks closed, with the tags ts in slot kd and taint(kd) of each fault entry set to p. -/
def keysWith (s t : State) (kd : Nat) (ts : List Tag) (ks : List Nat) (p : FaultEntry → Bool) : Prop :=
  t = { s with w := { s.w with pc := s.w.pc + 4, keys := { s.w.keys with
    tags := t.w.keys.tags, gen := t.w.keys.gen, faults := t.w.keys.faults } } } ∧
  tagsOf t.w kd = ts ∧ (∀ n, n ≠ kd → tagsOf t.w n = tagsOf s.w n) ∧
  (∀ n, Tab.get 0 t.w.keys.gen n =
    if timesClosed n ks = 0 then Tab.get 0 s.w.keys.gen n else (Tab.get 0 s.w.keys.gen n + timesClosed n ks) % 4096) ∧
  t.w.keys.faults = s.w.keys.faults.map (fun e =>
    { e with slots := e.slots &&& ~~~(BitVec.twoPow 16 kd) ||| (if p e then BitVec.twoPow 16 kd else 0) })

/-- The focus holds the group that the wave's handle names. -/
abbrev ownFocus (s : State) : Prop := s.w.status ≠ .idle ∧ groupHandle s.g = groupOf s.w.handle

/-- The barrier of the local offset that a scalar source names lies in the group's local memory (15 R395). -/
abbrev barrierAt (s : State) (a : Src) (off : Nat) : Prop :=
  srcScalarOk a = true ∧ off = (srcLane s (ty s) a 0).toNat % 2 ^ 19 / 16 * 16 ∧ off + 16 ≤ s.g.desc.lsize

/-- A barrier's fields: phase, reload count, pending arrivals, pending sectors, expected sectors, yield list. -/
def barrierIs (g : Group) (off phase reload arrivals sectors expected yielded : Nat) : Prop :=
  barGet g off = { phase := phase, reload := reload, arrivals := arrivals, sectors := sectors, expected := expected,
                   yielded := yielded }

/-! ## Memory accesses (15 R376-R387; 10 R240-R251) -/

/-- Some lane is in the mask, the captured scope is no reserved code, and no fault entry is due at the consume key. -/
abbrev accessReady (s : State) (k : BitVec 4) : Prop :=
  em s ≠ 0 ∧ scope s ≤ 5 ∧ entryToTake s.w (some k.toNat) (membersOf s s.w k.toNat) = none

/-- The type is accepted, an 8-byte access names an even register, and the wave holds the registers (R378, R381). -/
abbrev typedReady (s : State) (d : Nat) (held : List Nat) : Prop :=
  ty s ≠ 7 ∧ (accessSize (ty s) = 8 → d % 2 = 0) ∧ held.all (vHeld s) = true

/-- The data registers of an access under the captured type. -/
def dataAt (s : State) (d : BitVec 7) : List Nat := if accessSize (ty s) = 8 then [d.toNat, d.toNat + 1] else [d.toNat]

/-- The low n bytes of a number, lowest first. -/
def littleEndian (n v : Nat) : List Byte := (List.range n).map (fun i => BitVec.ofNat 8 (v / 256 ^ i))

/-- The data of a lane: one register, or two for 8 bytes. -/
def laneData (s : State) (d l : Nat) : Nat :=
  if accessSize (ty s) = 8 then (vget s (d + 1) l ++ vget s d l).toNat else (vget s d l).toNat

/-- base + v[M][l], modulo 2^64 (R377). -/
def globalAddr (s : State) (b : BitVec 2) (v : BitVec 7) (l : Nat) : Nat :=
  ((sget64 s (48 + 2 * b.toNat)).toNat + (vget s v.toNat l).toNat) % 2 ^ 64

/-- The low 32 bits of base + v[M][l], taken down to a multiple of n (R377). -/
def localAddr (s : State) (b : BitVec 2) (v : BitVec 7) (n l : Nat) : Nat :=
  ((sget64 s (48 + 2 * b.toNat)).toNat + (vget s v.toNat l).toNat) % 2 ^ 32 / n * n

/-- s goes to t by issuing operation o: it carries what the instruction captured, joins the open set of slot p when it is a
member, and the wave goes on, waiting when o is strong and not yet performed at its scope. Nothing else changes but the
completion flag it counts in, and the translations and caches that it used. -/
def issues (s t : State) (o : Op) (p k : Nat) (st member : Bool) (done : Nat) : Prop :=
  let tag : Tag := { handle := s.w.handle, slot := p, gen := Tab.get 0 s.w.keys.gen p }
  t = { s with
    w := { s.w with pc := s.w.pc + 4, flag := t.w.flag, keys := { s.w.keys with tags := t.w.keys.tags }
                    status := if st = true ∧ done ≤ o.scope then .waiting (.strong s.nextOp) else s.w.status }
    xlt := t.xlt, coh := t.coh, mem := { s.mem with stale := t.mem.stale }, ops := s.ops ++ [o], nextOp := s.nextOp + 1 } ∧
  o.id = s.nextOp ∧ o.owner = s.w.handle ∧ o.lane = s.lane ∧ o.pc = s.w.pc ∧ o.consume = k ∧
  o.waits = membersOf s s.w k ∧ o.strong = st ∧ o.done = done ∧ o.fault = none ∧ o.late = none ∧
  o.tag = (if member then some tag else none) ∧
  (∀ f, Tab.get 0 t.w.flag f = Tab.get 0 s.w.flag f + if o.flag = some f then 1 else 0) ∧
  ∀ n, tagsOf t.w n =
    if member = true ∧ n = p ∧ p ≠ 0 ∧ tag ∉ tagsOf s.w p then tagsOf s.w p ++ [tag] else tagsOf s.w n

/-- An operation leaves flight, and the flag count it holds and its tag with it: the wave's registers, masks, pc and
status, all of memory and every other operation stay. -/
def leavesFlight (s t : State) (o : Op) : Prop :=
  t.ops = s.ops.filter (fun p => p.id != o.id) ∧ t.w.pc = s.w.pc ∧ t.w.status = s.w.status ∧ t.w.stack = s.w.stack ∧
  t.w.trap.on = s.w.trap.on ∧ t.w.mode = s.w.mode ∧ t.nextOp = s.nextOp

/-- The operation is of the wave in focus, not of an ejected lane, its consume is satisfied, and nothing in flight met a
fault. -/
abbrev mayPerform (s : State) (o : Op) : Prop :=
  findOp s o.id = some o ∧ s.lane = none ∧ s.w.status ≠ .idle ∧ s.w.handle = o.owner ∧ groupHandle s.g = groupOf o.owner ∧
  o.lane = none ∧ waitsDone s o = true ∧ ∀ p ∈ s.ops, p.fault = none

/-- The byte that a load finds at a place: bound by an earlier event of its own (10 R247), or what memory holds. -/
abbrev foundByte (o : Op) (memory : Nat → Byte) (a : Nat) : Byte := ((o.got.find? (fun c => c.1 == a)).map (·.2)).getD (memory a)

/-- The places of accesses that no earlier event of the load has bound. -/
abbrev unboundPlaces (o : Op) (accs : List LaneAcc) : List Nat :=
  accs.flatMap (fun x => x.bytes.filter (fun a => !o.got.any (fun c => c.1 == a)))

/-- What the last cell of a list at address a holds, or what was there. -/
def cellAt {α : Type} (cells : List (Nat × α)) (a : Nat) (old : α) : α :=
  ((cells.reverse.find? (fun c => c.1 == a)).map (·.2)).getD old

/-- Table 15-2: the new value of w bits for old, x and c. -/
def atomValue (op : AtomOp) (w : Nat) (sg : Bool) (rm : Nat) (fl : Bool) (old x c : Nat) : Nat :=
  let v (y : Nat) : Int := if sg then (BitVec.ofNat w y).toInt else y
  match op with
  | .add => (old + x) % 2 ^ w
  | .min => if v x < v old then x else old
  | .max => if v old < v x then x else old
  | .band => old &&& x
  | .bor => old ||| x
  | .bxor => old ^^^ x
  | .xchg => x
  | .cas => if old = c then x else old
  | .inc => if x ≤ old then 0 else old + 1
  | .dec => if old = 0 ∨ x < old then x else old - 1
  | .fadd => (Sys2Proof.Num.round Sys2Proof.Num.f32 rm fl .arith (Sys2Proof.Num.add rm (Sys2Proof.Num.inF32 fl old) (Sys2Proof.Num.inF32 fl x)).1).1

/-! ## The matrix engine and the state-space unit (11, 12; 16 R410-R426) -/

/-- The local offset in the low 19 bits of s(2f) (16 R412). -/
def pairLocal (s : State) (f : BitVec 5) : Nat := (sget s (2 * f.toNat)).toNat % 2 ^ 19

/-- n bytes of local memory as the wave sees them, its own earlier stores among them (16 R413). -/
def localSeen (s : State) (off n : Nat) : List Byte := (List.range n).map (fun i => locByte (ownView s).g (off + i))

/-- The pair of f names a format block, b, that no check of Table 11-10 rejects, and that lies with its scales in the
group's local memory. -/
abbrev blockAt (s : State) (f : BitVec 5) (bin : Bool) (b : FmtBlk) : Prop :=
  pairLocal s f % 64 = 0 ∧ pairLocal s f + 64 ≤ s.g.desc.lsize ∧ b = blockOf (localSeen s (pairLocal s f) 64) ∧
  blockDefect bin (localSeen s (pairLocal s f) 64) b = none ∧ ∀ x ∈ scaleOffsets s b, x.1 + x.2 ≤ s.g.desc.lsize

/-- The word that beats give row r, column c, and the side element that they give row r. -/
def beatWord (beats : List (Nat × Beat)) (r c : Nat) : Option Word :=
  (beats.find? (fun b => b.1 == r / 32)).bind (fun b => (b.2.words.find? (fun w => w.1 == 32 * r + c)).map (·.2))
def beatSide (beats : List (Nat × Beat)) (r : Nat) : Option Word :=
  (beats.find? (fun b => b.1 == r / 32)).bind (fun b => (b.2.sides.find? (fun w => w.1 == r)).map (·.2))

/-- s goes to t by issuing matrix work on tile x: a beat for each mask word that is not zero, with the words and side
elements of the rows of active and helper lanes, and the flags it will set. No register changes yet. -/
def matrixIssues (s t : State) (x : BitVec 4) (word : Nat → Nat → Word) (side : Nat → Option Word) (f : Word) : Prop :=
  ∃ (o : Op) (beats : List (Nat × Beat)), issues s t o 0 0 false false 0 ∧ o.flag = assignedFlag s ∧
    o.kind = .matrix x.toNat beats f ∧ beats.map (·.1) = [0, 1, 2].filter (fun b => maskWord (em s) b != 0) ∧
    ∀ r, r < 96 → beatSide beats r = (if lane (activeMask s) r then side r else none) ∧
      ∀ c, c < 32 → beatWord beats r c = if lane (activeMask s) r then some (word r c) else none

/-- The integers of a list, added. -/
def total (n : Nat) (f : Nat → Int) : Int := ((List.range n).map f).sum

/-- Element k of row r of tile x as an integer of an integer format. -/
def intElem (s : State) (code : Nat) (x : BitVec 4) (r k : Nat) : Int :=
  let v := BitVec.ofNat (opndBits code) (tileRow s.w x.toNat r / 2 ^ (opndBits code * k))
  if code = 0 then v.toInt else v.toNat

/-- An accumulator element of a floating-point format as a value: F16 and BF16 in bits [15:0]; F32, its subnormals read as zero
under flush (11 R274, R285). -/
def accOf (acc : Nat) (fl : Bool) (x : Nat) : Sys2Proof.Num.Val :=
  if acc = 2 then Sys2Proof.Num.f16.decode (x % 2 ^ 16) else if acc = 3 then Sys2Proof.Num.bf16.decode (x % 2 ^ 16)
  else Sys2Proof.Num.inF32 fl x

/-- The rounding of a sum into the accumulator: F16 and BF16 saturate (11 R287). -/
def accBits (acc rm : Nat) (fl : Bool) (v : Sys2Proof.Num.Val) : Nat :=
  if acc = 2 then (Sys2Proof.Num.round Sys2Proof.Num.f16 rm false .saturate v).1
  else if acc = 3 then (Sys2Proof.Num.round Sys2Proof.Num.bf16 rm false .saturate v).1
  else (Sys2Proof.Num.round Sys2Proof.Num.f32 rm fl .arith v).1

/-- round_rne to F32. -/
def rounded (fl : Bool) (v : Sys2Proof.Num.Val) : Sys2Proof.Num.Val :=
  Sys2Proof.Num.f32.decode (Sys2Proof.Num.round Sys2Proof.Num.f32 0 fl .arith v).1

/-- Element k of row r of tile y, of an operand format of block b. -/
def operand (s : State) (b : FmtBlk) (code : Nat) (y : BitVec 4) (r k : Nat) : Sys2Proof.Num.Val :=
  opndVal code (if b.bfmt = 9 then (List.range 8).map (fun i => sget s (b.cbase + i)) else []) (rowElem code (tileRow s.w y.toNat r) k)

/-- The scale of row or column i in the block that holds element k: exactly 1 on a side without scales (11 R280). -/
def scaleAt (s : State) (present : Bool) (f len base count i k : Nat) : Sys2Proof.Num.Val :=
  if present then scaleVal f (numOf (localSeen s (base + (i * count + k / len) * scaleSize f) (scaleSize f))) else .fin false 1 0

/-- The elements of chunk q: 16 of them, or those below K (11 R285). -/
def chunkOf (b : FmtBlk) (q : Nat) : List Nat := (List.range (min (16 * q + 16) b.k - 16 * q)).map (16 * q + ·)

/-- t of R285, for chunk q of row r of tile xa and row c of tile xb. -/
def chunkValue (s : State) (b : FmtBlk) (xa xb : BitVec 4) (r c q : Nat) : Sys2Proof.Num.Val :=
  let fl := flush s && b.acc == 0
  let t := rounded fl (sumProducts ((chunkOf b q).map (fun k =>
    Sys2Proof.Num.mul (operand s b b.afmt xa r k) (operand s b b.bfmt xb c k)))).1
  if bit b.flags 0 || bit b.flags 1 then
    rounded fl (Sys2Proof.Num.mul (Sys2Proof.Num.mul t (scaleAt s (bit b.flags 0) b.asf b.la b.ascale b.acount r (16 * q))).1
      (scaleAt s (bit b.flags 1) b.bsf b.lb b.bscale b.bcount c (16 * q))).1
  else t

/-- mma_float of R285, from the old accumulator element. -/
def mmaResult (s : State) (b : FmtBlk) (xa xb : BitVec 4) (r c : Nat) (old : Word) : Word :=
  let fl := flush s && b.acc == 0
  (List.range ((b.k + 15) / 16)).foldl (fun x q => BitVec.ofNat 32 (accBits b.acc (rnd s) fl
    (Sys2Proof.Num.add (rnd s) (accOf b.acc fl x.toNat) (chunkValue s b xa xb r c q)).1)) old

/-- rowsum_update of 12 R296 for a floating-point accumulator, from the old side element. -/
def rowSumResult (s : State) (b : FmtBlk) (xa : BitVec 4) (r old : Nat) : Nat :=
  let term (q : Nat) : Sys2Proof.Num.Val :=
    let t := rounded false (sumVals ((chunkOf b q).map (operand s b b.afmt xa r))).1
    if bit b.flags 0 then rounded false (Sys2Proof.Num.mul t (scaleAt s true b.asf b.la b.ascale b.acount r (16 * q))).1 else t
  (Sys2Proof.Num.round Sys2Proof.Num.f32 0 false .arith ((List.range ((b.k + 15) / 16)).foldl (fun v q =>
    rounded false (Sys2Proof.Num.add 0 v (term q)).1) (Sys2Proof.Num.f32.decode old))).1

/-- xscale of 12 R297, from an accumulator element, its row's side element, and the scale and zero point of its column. -/
def scaledResult (b : FmtBlk) (old side scale zp : Word) : Nat :=
  let v : Sys2Proof.Num.Val :=
    if b.acc = 1 then Sys2Proof.Num.Val.ofInt (old.toInt - if bit b.flags 2 then zp.toInt * side.toInt else 0)
    else if bit b.flags 2 then
      rounded false (Sys2Proof.Num.fma 0 (Sys2Proof.Num.f32.decode zp.toNat).neg (Sys2Proof.Num.f32.decode side.toNat)
        (accOf b.acc false old.toNat)).1
    else accOf b.acc false old.toNat
  (Sys2Proof.Num.round Sys2Proof.Num.f32 0 false .arith (Sys2Proof.Num.mul v (Sys2Proof.Num.f32.decode scale.toNat)).1).1

/-- The span of n bytes at an address of the wave, translated for reading or writing (12 R307). -/
def spanOf (s : State) (need : Need) (va n : Nat) (x : Span) : Prop :=
  x.va = va % 2 ^ 56 ∧ accessPhys s need (va % 2 ^ 64) n = .ok x.places

/-- Bit k of row r of tile x. -/
def rowBit (s : State) (x : BitVec 4) (r k : Nat) : Bool := (xget s.w x.toNat r (k / 32)).getLsbD (k % 32)

/-- The lines of a streamed source, each with its key, address and places. -/
def streamed (s : State) (src : XSrc) (f : BitVec 5) (keys : List (Nat × Nat)) (places : Nat → List Nat) : List StreamLine :=
  let base (q : BitVec 2) : Nat := ((sget64 s (48 + 2 * q.toNat)).toNat + (sget s (2 * f.toNat + 1)).toNat) % 2 ^ 64 / 128 * 128
  match src with
  | .stream q => keys.map (fun k => { key := k.1, va := (base q + 128 * k.2) % 2 ^ 56, places := places k.1 })
  | _ => []

/-- Every tile but x, and every vector register, scalar register and predicate, stays. -/
def onlyTile (s t : State) (x : Nat) : Prop :=
  (∀ y, y ≠ x → Tab.get [] t.w.tile y = Tab.get [] s.w.tile y ∧ Tab.get [] t.w.side y = Tab.get [] s.w.side y) ∧
  t.w.vreg = s.w.vreg ∧ t.w.sreg = s.w.sreg ∧ t.w.pred = s.w.pred

/-! ## What writes of units meet (08 R207) -/

/-- No request engine owns a line, so that no recall writes anything. -/
abbrev noEngineOwns (s : State) : Prop := ∀ y ∈ s.coh.l2, ∀ a, y.owner = some a → a < 32

/-- Only the caches, and what DRAM still holds of the lines that they hold dirty, change: every byte and every check value of
memory reads as before. -/
def onlyCaches (s t : State) : Prop := t = { s with coh := t.coh, mem := { s.mem with stale := t.mem.stale } }

/-- The wait word of every queue that waits still translates and can be read (03 R75). -/
abbrev waitsStand (s : State) : Prop := ∀ x ∈ s.queues, waitLost s x = false

/-! ## The all-zero mask (06 R172) -/

/-- The wave-level instructions of Table 6-7. -/
def waveLevel : Instr → Bool
  | .mode .. => true
  | .joinAt .. => true
  | .br .. => true
  | .jx .. => true
  | .brsZ .. => true
  | .brsNz .. => true
  | .jmp .. => true
  | .jr .. => true
  | .jrLink .. => true
  | .call .. => true
  | .ret .. => true
  | .sloop .. => true
  | .waitf .. => true
  | .gbar .. => true
  | .gbarPhase .. => true
  | .exit => true
  | .vgive .. => true
  | .vclaim .. => true
  | .xgive .. => true
  | .xclaim .. => true
  | _ => false

end Sys2Proof.Claims
end

