-- ==== Sys2Proof/Certificates/Slice0/Obligations.lean ====
section
/-!
DEFINITION. The statements of the model for the provers, one def per statement; the vocabulary stands in Claims.lean.
-/

open Sys2Proof Sys2Proof.Machine

/-! ## Scalar instructions (14 R344, R345, R350-R352) -/

/-- Scalar arithmetic without saturation writes the low bits of the exact result and sets no flag. With
mode.saturate set the marked instructions clamp the exact result to the type's range and set SAT when they do. -/
def Obligations.ScalarArithmeticWrapsOrSaturates : Prop :=
  (∀ (s : State) (d : BitVec 6) (p : Bool) (a b : Src), Claims.scalarReady s d p [a, b] →
     let x := srcScalar s p a
     let y := srcScalar s p b
     (sat s = false →
       Claims.scalarGives s (.sadd d p a b) d p (x + y) 0 ∧
       Claims.scalarGives s (.ssub d p a b) d p (x - y) 0 ∧
       Claims.scalarGives s (.smul d p a b) d p (x * y) 0 ∧
       Claims.scalarGives s (.smad d p a b) d p (x * y + Claims.oldScalar s d p) 0) ∧
     (ty s ≠ 7 →
       Claims.scalarGives s (.smulh d p a b) d p
         (BitVec.ofInt 64 (Claims.intValue p (Claims.signedType s) x * Claims.intValue p (Claims.signedType s) y /
           2 ^ Claims.scalarW p)) 0)) ∧
  (∀ (s : State) (d : BitVec 6) (p : Bool) (a b : Src), Claims.scalarReady s d p [a, b] → sat s = true → ty s ≠ 7 →
     let v := Claims.intValue p (Claims.signedType s)
     let x := v (srcScalar s p a)
     let y := v (srcScalar s p b)
     Claims.scalarClamps s (.sadd d p a b) d p (x + y) ∧
     Claims.scalarClamps s (.ssub d p a b) d p (x - y) ∧
     Claims.scalarClamps s (.smul d p a b) d p (x * y) ∧
     Claims.scalarClamps s (.smad d p a b) d p (x * y + v (Claims.oldScalar s d p)))

/-- SDIV and SREM in each situation of R351: by zero, the one overflow with saturate clear and set, and otherwise
the quotient truncated towards zero with the remainder of the sign of a. In the row 'Same, saturate set' the flag SAT stands for both;
that SREM, whose result is exact, sets none is the model's reading (log 21, from Table 14-3). -/
def Obligations.ScalarDivisionFollowsTable : Prop :=
  ∀ (s : State) (d : BitVec 6) (p : Bool) (a b : Src), Claims.scalarReady s d p [a, b] → ty s ≠ 7 →
    let sg := Claims.signedType s
    let x := Claims.intValue p sg (srcScalar s p a)
    let y := Claims.intValue p sg (srcScalar s p b)
    let w := Claims.scalarW p
    (y = 0 →
      Claims.scalarGives s (.sdiv d p a b) d p (BitVec.allOnes 64) 0x40 ∧
      Claims.scalarGives s (.srem d p a b) d p (srcScalar s p a) 0x40) ∧
    (sg = true → x = -(2 ^ (w - 1)) → y = -1 →
      (sat s = false → Claims.scalarGives s (.sdiv d p a b) d p (BitVec.ofInt 64 (-(2 ^ (w - 1)))) 0) ∧
      (sat s = true → Claims.scalarGives s (.sdiv d p a b) d p (BitVec.ofInt 64 (2 ^ (w - 1) - 1)) 0x20) ∧
      Claims.scalarGives s (.srem d p a b) d p 0 0) ∧
    (y ≠ 0 → ¬(sg = true ∧ x = -(2 ^ (w - 1)) ∧ y = -1) →
      Claims.scalarGives s (.sdiv d p a b) d p (BitVec.ofInt 64 (x.tdiv y)) 0 ∧
      Claims.scalarGives s (.srem d p a b) d p (BitVec.ofInt 64 (x.tmod y)) 0)

/-- Moves, bitwise operations, shifts by b mod W, and selection by the old sd. SCLZ, SPOPC, SBFE and SBFI, bit by
bit. -/
def Obligations.ScalarBitOperations : Prop :=
  (∀ (s : State) (d : BitVec 6) (p : Bool) (a b : Src), Claims.scalarReady s d p [a, b] →
     let x := srcScalar s p a
     let y := srcScalar s p b
     let n := y.toNat % Claims.scalarW p
     Claims.scalarGives s (.smov d p a) d p x 0 ∧
     Claims.scalarGives s (.sand d p a b) d p (x &&& y) 0 ∧
     Claims.scalarGives s (.sor d p a b) d p (x ||| y) 0 ∧
     Claims.scalarGives s (.sxor d p a b) d p (x ^^^ y) 0 ∧
     Claims.scalarGives s (.snot d p a) d p (~~~x) 0 ∧
     Claims.scalarGives s (.sshl d p a b) d p (x <<< n) 0 ∧
     Claims.scalarGives s (.sshr d p a b) d p (x >>> n) 0 ∧
     Claims.scalarGives s (.ssar d p a b) d p (if p then x.sshiftRight n else ((x.setWidth 32).sshiftRight n).setWidth 64) 0 ∧
     Claims.scalarGives s (.ssel d p a b) d p (if Claims.oldScalar s d p = 0 then y else x) 0) ∧
  (∀ (s : State) (d : BitVec 6) (p : Bool) (a b : Src), Claims.scalarReady s d p [a, b] →
     let x := srcScalar s p a
     let y := srcScalar s p b
     let w := Claims.scalarW p
     let pos := bits y.toNat 5 0
     let n := min (bits y.toNat 14 8) w
     (∃ k, k ≤ w ∧ (∀ i, w - k ≤ i → i < w → x.getLsbD i = false) ∧ (k < w → x.getLsbD (w - 1 - k) = true) ∧
       Claims.scalarGives s (.sclz d p a) d p (BitVec.ofNat 64 k) 0) ∧
     Claims.scalarGives s (.spopc d p a) d p (BitVec.ofNat 64 ((List.range w).countP (fun i => x.getLsbD i))) 0 ∧
     (ty s ≠ 7 → ∃ v : BitVec 64,
       (∀ i, i < w → v.getLsbD i =
         if n = 0 then false
         else if i < n then Claims.fieldBit w (Claims.signedType s) x pos i
         else Claims.signedType s && Claims.fieldBit w (Claims.signedType s) x pos (n - 1)) ∧
       Claims.scalarGives s (.sbfe d p a b) d p v 0) ∧
     (∃ v : BitVec 64,
       (∀ i, i < w → v.getLsbD i =
         if pos ≤ i ∧ i < pos + n then x.getLsbD (i - pos) else (Claims.oldScalar s d p).getLsbD i) ∧
       Claims.scalarGives s (.sbfi d p a b) d p v 0))

/-- SMIN and SMAX choose by the captured type; the SCMP relations give 1 or 0, the signed ones whatever the type.
SMOVI writes the sign-extended immediate; SMOVHI replaces bits [31:16] and keeps bits [15:0] of the old sd. -/
def Obligations.ScalarComparesAndMoves : Prop :=
  (∀ (s : State) (d : BitVec 6) (p : Bool) (a b : Src), Claims.scalarReady s d p [a, b] →
     let x := srcScalar s p a
     let y := srcScalar s p b
     let v := Claims.intValue p (Claims.signedType s)
     let one (c : Prop) [Decidable c] : BitVec 64 := if c then 1 else 0
     (ty s ≠ 7 →
       Claims.scalarGives s (.smin d p a b) d p (if v x ≤ v y then x else y) 0 ∧
       Claims.scalarGives s (.smax d p a b) d p (if v x ≤ v y then y else x) 0) ∧
     Claims.scalarGives s (.scmpEq d p a b) d p (one (x = y)) 0 ∧
     Claims.scalarGives s (.scmpNe d p a b) d p (one (x ≠ y)) 0 ∧
     Claims.scalarGives s (.scmpLt d p a b) d p (one (Claims.intValue p true x < Claims.intValue p true y)) 0 ∧
     Claims.scalarGives s (.scmpLe d p a b) d p (one (Claims.intValue p true x ≤ Claims.intValue p true y)) 0 ∧
     Claims.scalarGives s (.scmpLtu d p a b) d p (one (Claims.intValue p false x < Claims.intValue p false y)) 0 ∧
     Claims.scalarGives s (.scmpLeu d p a b) d p (one (Claims.intValue p false x ≤ Claims.intValue p false y)) 0) ∧
  (∀ (s : State) (d : BitVec 6) (imm : BitVec 16), em s ≠ 0 →
     Claims.scalarGives s (.smovi d imm) d false (BitVec.ofInt 64 imm.toInt) 0 ∧
     Claims.scalarGives s (.smovhi d imm) d false ((imm ++ (sget s d.toNat).extractLsb' 0 16).setWidth 64) 0)

/-- A scalar instruction traps with ILLOPND where a source code is none of format S (detail
0) and where a pair is odd (detail 5), and goes on doing nothing with an all-zero mask. A vector instruction traps
with ILLOPND for a reserved code (detail 0), then for a type it does not accept (detail 4), then for a register the
wave does not hold (detail 1); with an all-zero mask it goes on doing nothing. A word that is no instruction traps
with ILLOP, TRAP_DETAIL 1 for a non-zero reserved field and 0 for an unassigned opcode; with an all-zero mask the
wave goes on, unless a reserved field stands in a wave-level instruction. Where several of these checks fail at once R329 and R348 do
not place them all: the order of a reserved code before an odd pair, and of a refused type between a reserved code and a register not
held, is the model's reading (log 18). -/
def Obligations.OperandAndEncodingChecks : Prop :=
  (∀ (s : State) (d : BitVec 6) (p : Bool) (a b : Src) (i : Instr),
     i ∈ [Instr.sadd d p a b, .ssub d p a b, .smul d p a b, .smulh d p a b, .smad d p a b, .sdiv d p a b, .srem d p a b,
       .sand d p a b, .sor d p a b, .sxor d p a b, .sshl d p a b, .sshr d p a b, .ssar d p a b, .smin d p a b,
       .smax d p a b, .sbfe d p a b, .sbfi d p a b, .ssel d p a b, .scmpEq d p a b, .scmpNe d p a b, .scmpLt d p a b,
       .scmpLe d p a b, .scmpLtu d p a b, .scmpLeu d p a b] →
     (em s = 0 → exec i s = .next (advance s)) ∧
     (em s ≠ 0 → (srcScalarOk a = false ∨ srcScalarOk b = false) →
       exec i s = .next (takeTrap { cause := 0x02, detail := 0 } s)) ∧
     (em s ≠ 0 → srcScalarOk a = true → srcScalarOk b = true → p = true →
       (d.toNat % 2 = 1 ∨ srcEven p a = false ∨ srcEven p b = false) →
       exec i s = .next (takeTrap { cause := 0x02, detail := 5 } s))) ∧
  (∀ (s : State) (d : BitVec 7) (a b : Src) (i : Instr),
     i ∈ [Instr.vadd d a b, .vsub d a b, .vmul d a b, .vmulh d a b, .vmad d a b, .vshl d a b, .vshr d a b, .vsar d a b,
       .vmin d a b, .vmax d a b] →
     (em s = 0 → exec i s = .next (advance s)) ∧
     (em s ≠ 0 → (srcNotReserved a = false ∨ srcNotReserved b = false) →
       exec i s = .next (takeTrap { cause := 0x02, detail := 0 } s)) ∧
     (em s ≠ 0 → srcNotReserved a = true → srcNotReserved b = true → typeA (ty s) = false →
       exec i s = .next (takeTrap { cause := 0x02, detail := 4 } s)) ∧
     (em s ≠ 0 → srcNotReserved a = true → srcNotReserved b = true → typeA (ty s) = true →
       (srcHeld s a = false ∨ srcHeld s b = false ∨ vHeld s d.toNat = false) →
       exec i s = .next (takeTrap { cause := 0x02, detail := 1 } s))) ∧
  (∀ (s : State) (w : Word),
     (decode w = .error .unassigned →
       (em s ≠ 0 → exec (.unassignedEncoding w) s = .next (takeTrap { cause := 0x01, detail := 0 } s)) ∧
       (em s = 0 → exec (.unassignedEncoding w) s = .next (Claims.goesOn s))) ∧
     (decode w = .error .reservedField →
       (em s ≠ 0 ∨ waveOpcode (w.extractLsb' 23 9).toNat = true →
         exec (.unassignedEncoding w) s = .next (takeTrap { cause := 0x01, detail := 1 } s)) ∧
       (em s = 0 → waveOpcode (w.extractLsb' 23 9).toNat = false →
         exec (.unassignedEncoding w) s = .next (Claims.goesOn s))))

/-! ## Vector integer instructions (14 R342, R343, R345, R352-R357) -/

/-- Element arithmetic without saturation, and shifts by the low bits of the matching element: the low w bits, no
flag. VMULH, VMIN and VMAX by the signedness of the type; VABS and VNEG without saturation. With mode.saturate set,
VADD, VSUB, VMUL, VMAD, VABS and VNEG clamp each element, and SAT is set exactly when an element of an active
non-helper lane clamps. -/
def Obligations.VectorArithmeticWrapsOrSaturates : Prop :=
  (∀ (s : State) (d : BitVec 7) (a b : Src), Claims.vectorReady s (typeA (ty s)) [a, b] [d.toNat] →
     let w := elemWidth (ty s)
     (sat s = false →
       Claims.elementsGive s (.vadd d a b) d a b (fun x y _ => (x + y) % 2 ^ w) ∧
       Claims.elementsGive s (.vsub d a b) d a b (fun x y _ => (x + (2 ^ w - y)) % 2 ^ w) ∧
       Claims.elementsGive s (.vmul d a b) d a b (fun x y _ => x * y % 2 ^ w) ∧
       Claims.elementsGive s (.vmad d a b) d a b (fun x y z => (x * y + z) % 2 ^ w)) ∧
     Claims.elementsGive s (.vshl d a b) d a b (fun x y _ => x * 2 ^ (y % w) % 2 ^ w) ∧
     Claims.elementsGive s (.vshr d a b) d a b (fun x y _ => x / 2 ^ (y % w)) ∧
     Claims.elementsGive s (.vsar d a b) d a b (fun x y _ => ((sext x w / 2 ^ (y % w)) % 2 ^ w).toNat)) ∧
  (∀ (s : State) (d : BitVec 7) (a b : Src),
     let w := elemWidth (ty s)
     let v := Alu.val w (Sys2Proof.Num.intSigned (ty s))
     (Claims.vectorReady s (typeA (ty s)) [a, b] [d.toNat] →
       Claims.elementsGive s (.vmulh d a b) d a b (fun x y _ => (v x * v y / 2 ^ w % 2 ^ w).toNat) ∧
       Claims.elementsGive s (.vmin d a b) d a b (fun x y _ => if v x ≤ v y then x else y) ∧
       Claims.elementsGive s (.vmax d a b) d a b (fun x y _ => if v x ≤ v y then y else x)) ∧
     (Claims.vectorReady s (typeSigned (ty s)) [a] [d.toNat] → sat s = false →
       Claims.elementsGive s (.vabs d a) d a a (fun x _ _ => (sext x w).natAbs % 2 ^ w) ∧
       Claims.elementsGive s (.vneg d a) d a a (fun x _ _ => (2 ^ w - x) % 2 ^ w))) ∧
  (∀ (s : State) (d : BitVec 7) (a b : Src), sat s = true →
     (Claims.vectorReady s (typeA (ty s)) [a, b] [d.toNat] →
       Claims.elementsClamp s (.vadd d a b) d a b (fun x y _ => x + y) ∧
       Claims.elementsClamp s (.vsub d a b) d a b (fun x y _ => x - y) ∧
       Claims.elementsClamp s (.vmul d a b) d a b (fun x y _ => x * y) ∧
       Claims.elementsClamp s (.vmad d a b) d a b (fun x y z => x * y + z)) ∧
     (Claims.vectorReady s (typeSigned (ty s)) [a] [d.toNat] →
       Claims.elementsClamp s (.vabs d a) d a a (fun x _ _ => (x.natAbs : Int)) ∧
       Claims.elementsClamp s (.vneg d a) d a a (fun x _ _ => -x)))

/-- The whole-lane operations of type Any: bitwise, counts, bit reversal, selection, funnel shift, byte permutation
and carry-less product; constants are valued as under N32. VBFE and VBFI under N32 and I32: field position and
length from source b (R352). -/
def Obligations.VectorBitOperations : Prop :=
  (∀ (s : State) (d : BitVec 7) (a b : Src), Claims.vectorReady s true [a, b] [d.toNat] →
     let x (l : Nat) : Word := srcLane s 0 a l
     let y (l : Nat) : Word := srcLane s 0 b l
     let z (l : Nat) : Word := vget s d.toNat l
     let byte (l i : Nat) : BitVec 8 := (y l ++ x l).extractLsb' (8 * i) 8
     Claims.laneGives s (.vand d a b) d (fun l => x l &&& y l) 0 ∧
     Claims.laneGives s (.vor d a b) d (fun l => x l ||| y l) 0 ∧
     Claims.laneGives s (.vxor d a b) d (fun l => x l ^^^ y l) 0 ∧
     Claims.laneGives s (.vnot d a) d (fun l => ~~~x l) 0 ∧
     Claims.laneGives s (.vsel d a b) d (fun l => if z l = 0 then y l else x l) 0 ∧
     Claims.laneGives s (.vshf d a b) d (fun l => ((x l ++ z l) >>> ((y l).toNat % 32)).extractLsb' 0 32) 0 ∧
     Claims.goes (.vbrev d a) s (fun t => Claims.writesVector s t d.toNat (activeMask s) 0 ∧
       ∀ l i, l < 96 → lane (activeMask s) l = true → i < 32 → (vget t d.toNat l).getLsbD i = (x l).getLsbD (31 - i)) ∧
     Claims.laneGives s (.vpopc d a) d (fun l => BitVec.ofNat 32 ((List.range 32).countP (fun i => (x l).getLsbD i))) 0 ∧
     Claims.goes (.vclz d a) s (fun t => Claims.writesVector s t d.toNat (activeMask s) 0 ∧
       ∀ l, l < 96 → lane (activeMask s) l = true → ∃ k, vget t d.toNat l = BitVec.ofNat 32 k ∧ k ≤ 32 ∧
         (∀ i, 32 - k ≤ i → i < 32 → (x l).getLsbD i = false) ∧ (k < 32 → (x l).getLsbD (31 - k) = true)) ∧
     Claims.goes (.vprmt d a b) s (fun t => Claims.writesVector s t d.toNat (activeMask s) 0 ∧
       ∀ l i, l < 96 → lane (activeMask s) l = true → i < 4 →
         let c := (z l).extractLsb' (4 * i) 4
         let q := byte l (c.toNat % 8)
         (vget t d.toNat l).extractLsb' (8 * i) 8 =
           if c.getLsbD 3 then (if q.getLsbD 7 then 0xFF else 0) else q) ∧
     Claims.goes (.vclmulLo d a b) s (fun t => Claims.writesVector s t d.toNat (activeMask s) 0 ∧
       ∀ l j, l < 96 → lane (activeMask s) l = true → j < 32 →
         (vget t d.toNat l).getLsbD j =
           ((List.range (j + 1)).foldl (fun r i => r != ((x l).getLsbD i && (y l).getLsbD (j - i))) false)) ∧
     Claims.goes (.vclmulHi d a b) s (fun t => Claims.writesVector s t d.toNat (activeMask s) 0 ∧
       ∀ l j, l < 96 → lane (activeMask s) l = true → j < 32 →
         (vget t d.toNat l).getLsbD j =
           ((List.range 32).foldl (fun r i => r != ((x l).getLsbD i && (y l).getLsbD (32 + j - i))) false))) ∧
  (∀ (s : State) (d : BitVec 7) (a b : Src), Claims.vectorReady s (typeB (ty s)) [a, b] [d.toNat] →
     let sg := Claims.signedType s
     let x (l : Nat) : BitVec 64 := (srcLane s (ty s) a l).setWidth 64
     let pos (l : Nat) := bits (srcLane s (ty s) b l).toNat 5 0
     let n (l : Nat) := min (bits (srcLane s (ty s) b l).toNat 14 8) 32
     Claims.goes (.vbfe d a b) s (fun t => Claims.writesVector s t d.toNat (activeMask s) 0 ∧
       ∀ l i, l < 96 → lane (activeMask s) l = true → i < 32 → (vget t d.toNat l).getLsbD i =
         if n l = 0 then false
         else if i < n l then Claims.fieldBit 32 sg (x l) (pos l) i
         else sg && Claims.fieldBit 32 sg (x l) (pos l) (n l - 1)) ∧
     Claims.goes (.vbfi d a b) s (fun t => Claims.writesVector s t d.toNat (activeMask s) 0 ∧
       ∀ l i, l < 96 → lane (activeMask s) l = true → i < 32 → (vget t d.toNat l).getLsbD i =
         if pos l ≤ i ∧ i < pos l + n l then (x l).getLsbD (i - pos l) else (vget s d.toNat l).getLsbD i))

/-- VADDC adds with the carry held in g7, whatever mode.saturate holds, and sets no flag; other lanes keep vd and
g7. -/
def Obligations.VectorAddWithCarry : Prop :=
  ∀ (s : State) (d : BitVec 7) (a b : Src), Claims.vectorReady s (typeB (ty s)) [a, b] [d.toNat] →
    let sum (l : Nat) := (srcLane s (ty s) a l).toNat + (srcLane s (ty s) b l).toNat + (if lane (pget s 7) l then 1 else 0)
    Claims.goes (.vaddc d a b) s (fun t =>
      t = { s with w := { s.w with vreg := t.w.vreg, trap := { s.w.trap with tv := t.w.trap.tv }, pred := t.w.pred,
                                   pc := s.w.pc + 4 } } ∧
      (∀ l, l < 96 → vget t d.toNat l = if lane (activeMask s) l then BitVec.ofNat 32 (sum l) else vget s d.toNat l) ∧
      (∀ l, l < 96 → lane (pget t 7) l =
        if lane (activeMask s) l then decide (2 ^ 32 ≤ sum l) else lane (pget s 7) l) ∧
      (∀ n, n ≠ d.toNat → vrow t n = vrow s n) ∧ ∀ g, g ≠ 7 → pget t g = pget s g)

/-! ## Predicates (14 R355, R367) -/

/-- VCMP and FCMP write gd with the condition of R355; PAND, POR, PXOR, PNOT and PSET with that of R367. -/
def Obligations.PredicateWrites : Prop :=
  ∀ (s : State) (g : BitVec 3) (a b : Src) (pa pb : BitVec 4),
    let src (p : BitVec 4) (l : Nat) : Bool := lane (pget s (p.toNat % 8)) l != p.getLsbD 3
    (em s ≠ 0 →
      Claims.predicateGives s (.pand g pa pb) g (fun l => src pa l && src pb l) ∧
      Claims.predicateGives s (.por g pa pb) g (fun l => src pa l || src pb l) ∧
      Claims.predicateGives s (.pxor g pa pb) g (fun l => src pa l != src pb l) ∧
      Claims.predicateGives s (.pnot g pa) g (fun l => !src pa l)) ∧
    (Claims.vectorReady s true [a] [] → Claims.predicateGives s (.pset g a) g (fun l => srcLane s 0 a l != 0)) ∧
    (Claims.vectorReady s (typeB (ty s)) [a, b] [] → ∀ c : BitVec 4,
      let x (l : Nat) : Int := Claims.intValue false (Claims.signedType s) ((srcLane s (ty s) a l).setWidth 64)
      let y (l : Nat) : Int := Claims.intValue false (Claims.signedType s) ((srcLane s (ty s) b l).setWidth 64)
      (c = 0 → Claims.predicateGives s (.vcmp c g a b) g (fun l => decide (x l = y l))) ∧
      (c = 1 → Claims.predicateGives s (.vcmp c g a b) g (fun l => decide (x l ≠ y l))) ∧
      (c = 2 → Claims.predicateGives s (.vcmp c g a b) g (fun l => decide (x l < y l))) ∧
      (c = 3 → Claims.predicateGives s (.vcmp c g a b) g (fun l => decide (x l ≤ y l))) ∧
      (c = 4 → Claims.predicateGives s (.vcmp c g a b) g (fun l => decide (x l > y l))) ∧
      (c = 5 → Claims.predicateGives s (.vcmp c g a b) g (fun l => decide (x l ≥ y l))) ∧
      (6 ≤ c.toNat → exec (.vcmp c g a b) s = .next (takeTrap { cause := 0x01, detail := 1 } s))) ∧
    (Claims.vectorReady s (ty s == 0x4) [a, b] [] → ∀ c : BitVec 4,
      let x (l : Nat) : Sys2Proof.Num.Val := f32Lane s a l
      let y (l : Nat) : Sys2Proof.Num.Val := f32Lane s b l
      let ordered (l : Nat) : Bool := x l != .nan && y l != .nan
      (c = 0 → Claims.predicateGives s (.fcmp c g a b) g (fun l => ordered l && !valLt false (x l) (y l) && !valLt false (y l) (x l))) ∧
      (c = 1 → Claims.predicateGives s (.fcmp c g a b) g (fun l => !ordered l || valLt false (x l) (y l) || valLt false (y l) (x l))) ∧
      (c = 2 → Claims.predicateGives s (.fcmp c g a b) g (fun l => ordered l && valLt false (x l) (y l))) ∧
      (c = 3 → Claims.predicateGives s (.fcmp c g a b) g (fun l => ordered l && !valLt false (y l) (x l))) ∧
      (c = 4 → Claims.predicateGives s (.fcmp c g a b) g (fun l => ordered l && valLt false (y l) (x l))) ∧
      (c = 5 → Claims.predicateGives s (.fcmp c g a b) g (fun l => ordered l && !valLt false (x l) (y l))) ∧
      (c = 6 → Claims.predicateGives s (.fcmp c g a b) g ordered) ∧
      (c = 7 → Claims.predicateGives s (.fcmp c g a b) g (fun l => !ordered l)) ∧
      (8 ≤ c.toNat → exec (.fcmp c g a b) s = .next (takeTrap { cause := 0x01, detail := 1 } s)))

/-! ## Floating point (14 R346, R358-R363; 11 R272-R276) -/

/-- The F32 instructions: each active and helper lane takes the exact result of its operands (flushed under R274)
rounded once under the captured mode, and the flags of the active non-helper lanes are set. The special values of
R358 and Table 11-6: limits of the special functions, exact and with the flags named. -/
def Obligations.FloatResultsRoundedOnce : Prop :=
  (∀ (s : State) (d : BitVec 7) (a b : Src), Claims.vectorReady s (ty s == 0x4) [a, b] [d.toNat] → rnd s ≤ 4 →
     let x (l : Nat) : Sys2Proof.Num.Val := Sys2Proof.Num.inF32 (flush s) (srcLane s 0x4 a l).toNat
     let y (l : Nat) : Sys2Proof.Num.Val := Sys2Proof.Num.inF32 (flush s) (srcLane s 0x4 b l).toNat
     let z (l : Nat) : Sys2Proof.Num.Val := Sys2Proof.Num.inF32 (flush s) (vget s d.toNat l).toNat
     let rounded (r : Sys2Proof.Num.Val × Word) : Nat × Word :=
       let q := Sys2Proof.Num.round Sys2Proof.Num.f32 (rnd s) (flush s) .arith r.1
       (q.1, q.2 ||| r.2)
     Claims.floatGives s (.fadd d a b) d (fun l => rounded (Sys2Proof.Num.add (rnd s) (x l) (y l))) ∧
     Claims.floatGives s (.fsub d a b) d (fun l => rounded (Sys2Proof.Num.add (rnd s) (x l) (y l).neg)) ∧
     Claims.floatGives s (.fmul d a b) d (fun l => rounded (Sys2Proof.Num.mul (x l) (y l))) ∧
     Claims.floatGives s (.ffma d a b) d (fun l => rounded (Sys2Proof.Num.fma (rnd s) (x l) (y l) (z l))) ∧
     Claims.floatGives s (.frcp d a) d (fun l => frcpVal s (x l)) ∧
     Claims.floatGives s (.frsq d a) d (fun l => frsqVal s (x l)) ∧
     Claims.floatGives s (.fsqrt d a) d (fun l => fsqrtVal s (x l)) ∧
     Claims.floatGives s (.fexp2 d a) d (fun l => fexp2Val s (x l)) ∧
     Claims.floatGives s (.flog2 d a) d (fun l => flog2Val s (x l)) ∧
     Claims.floatGives s (.ftanh d a) d (fun l => ftanhVal s (x l)) ∧
     Claims.floatGives s (.frnd d a) d (fun l => ((frndVal s (x l)).1, 0))) ∧
  (∀ s : State,
     (∀ n : Bool, (frcpVal s (.inf n)).1 = (if n then 0x80000000 else 0) ∧ (frcpVal s (.inf n)).2 = 0) ∧
     (∀ (n : Bool) (e : Int), frcpVal s (.fin n 0 e) = (if n then 0xFF800000 else 0x7F800000, 0x02)) ∧
     frsqVal s (.inf false) = (0, 0) ∧ frsqVal s (.inf true) = (0x7FC00000, 0x01) ∧
     (∀ (n : Bool) (e : Int), frsqVal s (.fin n 0 e) = (if n then 0xFF800000 else 0x7F800000, 0x02)) ∧
     fexp2Val s (.inf true) = (0, 0) ∧ fexp2Val s (.inf false) = (0x7F800000, 0) ∧
     flog2Val s (.inf false) = (0x7F800000, 0) ∧ flog2Val s (.fin false 1 0) = (0, 0) ∧
     (∀ (n : Bool) (e : Int), flog2Val s (.fin n 0 e) = (0xFF800000, 0x02)) ∧
     (∀ n : Bool, ftanhVal s (.inf n) = (if n then 0xBF800000 else 0x3F800000, 0)) ∧
     (∀ (n : Bool) (e : Int), ftanhVal s (.fin n 0 e) = (if n then 0x80000000 else 0, 0)) ∧
     (∀ (n : Bool) (e : Int), fsqrtVal s (.fin n 0 e) = (if n then 0x80000000 else 0, 0)) ∧
     (∀ (m : Nat) (e : Int), fsqrtVal s (.fin true (m + 1) e) = (0x7FC00000, 0x01) ∧
       frsqVal s (.fin true (m + 1) e) = (0x7FC00000, 0x01) ∧ flog2Val s (.fin true (m + 1) e) = (0x7FC00000, 0x01)))

/-- FMIN and FMAX: one NaN gives the other operand, two give the canonical NaN, else the smaller or larger with -0
below +0; no flag. FCLASS sets the one bit of the class of a's bits, whatever mode.flush holds. HADD2, HMUL2 and
HFMA2 round each 16-bit element once, keeping subnormals whatever mode.flush holds; CVT writes the converted element
in element 0, sign-extended for I8 and I16; CVTPK packs two F32 values. FADD, FSUB, FMUL, FFMA, FRND and the special
functions complete whatever their operands hold, with the canonical NaN in each active or helper lane whose operand
a is NaN (11 R268, R276). Conversions out of range, flushed
inputs of CVT and the captured type of CVTPK's constants are the model's reading (log 21). -/
def Obligations.FloatMinMaxPackedAndConversion : Prop :=
  (∀ (s : State) (d : BitVec 7) (a b : Src), Claims.vectorReady s (ty s == 0x4) [a, b] [d.toNat] →
     let x (l : Nat) : Sys2Proof.Num.Val := Sys2Proof.Num.inF32 (flush s) (srcLane s 0x4 a l).toNat
     let y (l : Nat) : Sys2Proof.Num.Val := Sys2Proof.Num.inF32 (flush s) (srcLane s 0x4 b l).toNat
     let code (v : Sys2Proof.Num.Val) : Word := BitVec.ofNat 32 (Sys2Proof.Num.round Sys2Proof.Num.f32 0 false .arith v).1
     let choose (smaller : Bool) (u v : Sys2Proof.Num.Val) : Sys2Proof.Num.Val :=
       if u = .nan then v else if v = .nan then u
       else if smaller then (if valLt true v u then v else u) else (if valLt true u v then v else u)
     let bitsOf (l : Nat) : Nat := (srcLane s 0x4 a l).toNat
     Claims.laneGives s (.fmin d a b) d (fun l => code (choose true (x l) (y l))) 0 ∧
     Claims.laneGives s (.fmax d a b) d (fun l => code (choose false (x l) (y l))) 0 ∧
     Claims.laneGives s (.fclass d a) d (fun l =>
       let neg := bit (bitsOf l) 31
       let ex := bits (bitsOf l) 30 23
       let fr := bits (bitsOf l) 22 0
       BitVec.twoPow 32 (
         if ex = 255 ∧ fr ≠ 0 then 8
         else if ex = 255 then (if neg then 0 else 7)
         else if ex = 0 ∧ fr = 0 then (if neg then 3 else 4)
         else if ex = 0 then (if neg then 2 else 5)
         else if neg then 1 else 6)) 0) ∧
  (∀ (s : State) (d : BitVec 7) (a b : Src), Claims.vectorReady s (ty s == 0x4) [a, b] [d.toNat] → rnd s ≤ 4 →
     ∀ i ∈ [Instr.fadd d a b, .fsub d a b, .fmul d a b, .ffma d a b, .frnd d a, .frcp d a, .frsq d a, .fsqrt d a, .fexp2 d a,
       .flog2 d a, .ftanh d a], Claims.goes i s (fun t => ∃ f : Word, Claims.writesVector s t d.toNat (activeMask s) f ∧
       ∀ l, l < 96 → lane (activeMask s) l = true → Sys2Proof.Num.f32.decode (srcLane s 0x4 a l).toNat = .nan →
         vget t d.toNat l = 0x7FC00000)) ∧
  (∀ (s : State) (d : BitVec 7) (a b : Src),
     let t := ty s
     (Claims.vectorReady s (t == 0xA || t == 0xB) [a, b] [d.toNat] → rnd s ≤ 4 →
       let f := Sys2Proof.Num.fmtOf t
       let e (v : Word) (k : Nat) : Sys2Proof.Num.Val := f.decode (elemAt 16 v.toNat k)
       let half (i : Instr) (op : Sys2Proof.Num.Val → Sys2Proof.Num.Val → Sys2Proof.Num.Val → Sys2Proof.Num.Val × Word) : Prop :=
         let r (l k : Nat) : Nat × Word :=
           let p := op (e (srcLane s t a l) k) (e (srcLane s t b l) k) (e (vget s d.toNat l) k)
           ((Sys2Proof.Num.round f (rnd s) false .arith p.1).1, (Sys2Proof.Num.round f (rnd s) false .arith p.1).2 ||| p.2)
         Claims.laneGives s i d (fun l => BitVec.ofNat 16 (r l 1).1 ++ BitVec.ofNat 16 (r l 0).1)
           (laneFlags (nonHelperMask s) (fun l => (r l 0).2 ||| (r l 1).2))
       half (.hadd2 d a b) (fun u v _ => Sys2Proof.Num.add (rnd s) u v) ∧
       half (.hmul2 d a b) (fun u v _ => Sys2Proof.Num.mul u v) ∧
       half (.hfma2 d a b) (fun u v w => Sys2Proof.Num.fma (rnd s) u v w)) ∧
     (∀ (st : BitVec 4) (j : BitVec 2), st ≠ 2 → st ≠ 3 → st ≠ 7 → cvtIndexOk st j = true →
       Claims.vectorReady s (t != 0x2 && t != 0x3 && t != 0x7) [a] [d.toNat] → (convRounds st.toNat t = true → rnd s ≤ 4) →
       let r (l : Nat) : Nat × Word :=
         Sys2Proof.Num.convert (rnd s) (sat s) (flush s) st.toNat t (elemAt (elemWidth st.toNat) (srcLane s st.toNat a l).toNat j.toNat)
       Claims.laneGives s (.cvt d a st j) d
         (fun l => if t = 0x6 then BitVec.signExtend 32 (BitVec.ofNat 16 (r l).1)
           else if t = 0x9 then BitVec.signExtend 32 (BitVec.ofNat 8 (r l).1) else BitVec.ofNat 32 (r l).1)
         (laneFlags (nonHelperMask s) (fun l => (r l).2))) ∧
     (Claims.vectorReady s (decide (0xA ≤ t) && decide (t ≤ 0xE)) [a, b] [d.toNat] → (t ≠ 0xE → rnd s ≤ 4) →
       let r (c : Src) (l : Nat) : Nat × Word := Sys2Proof.Num.convert (rnd s) (sat s) (flush s) 0x4 t (srcLane s t c l).toNat
       Claims.laneGives s (.cvtpk d a b) d
         (fun l => if t = 0xA ∨ t = 0xB then BitVec.ofNat 16 (r b l).1 ++ BitVec.ofNat 16 (r a l).1
           else (vget s d.toNat l).extractLsb' 0 16 ++ (BitVec.ofNat 8 (r b l).1 ++ BitVec.ofNat 8 (r a l).1))
         (laneFlags (nonHelperMask s) (fun l => (r a l).2 ||| (r b l).2))))

/-- A representable value is rounded to itself, exactly and with no flag, under every rounding mode: rounding the
value of a bit pattern of F32, BF16, F16 or E5M2 that is no NaN gives the pattern back (a subnormal where flush is
clear). The rounding modes of Table 11-4, for a value m × 2^e rounded to a multiple of 2^q: RZ takes the neighbour
nearer to zero, RU the one nearer to +Inf, RD the one nearer to -Inf, RNE and RNA the nearer one, on a tie the even
one and the one of larger magnitude; and inexact means that the result differs. -/
def Obligations.RoundingFollowsItsMode : Prop :=
  (∀ (f : Sys2Proof.Num.Fmt) (rm x : Nat) (ov : Sys2Proof.Num.OnOverflow), f ∈ [Sys2Proof.Num.f32, Sys2Proof.Num.bf16, Sys2Proof.Num.f16, Sys2Proof.Num.e5m2, Sys2Proof.Num.e4m3] →
     x < 2 ^ (1 + f.eb + f.fb) → f.decode x ≠ .nan → Sys2Proof.Num.round f rm false ov (f.decode x) = (x, 0)) ∧
  (∀ (neg : Bool) (m : Nat) (e q : Int), e ≤ q →
     let exact : Int := if neg then -(m : Int) else m
     let back (rm : Nat) : Int :=
       let r := (Sys2Proof.Num.roundAt rm neg m e q).1 * 2 ^ (q - e).toNat
       if neg then -(r : Int) else r
     (back 1).natAbs ≤ m ∧ m < (back 1).natAbs + 2 ^ (q - e).toNat ∧
     exact ≤ back 2 ∧ back 2 < exact + 2 ^ (q - e).toNat ∧
     back 3 ≤ exact ∧ exact < back 3 + 2 ^ (q - e).toNat ∧
     2 * (back 0 - exact).natAbs ≤ 2 ^ (q - e).toNat ∧
     2 * (back 4 - exact).natAbs ≤ 2 ^ (q - e).toNat ∧
     (2 * (m % 2 ^ (q - e).toNat) = 2 ^ (q - e).toNat →
       (Sys2Proof.Num.roundAt 0 neg m e q).1 % 2 = 0 ∧ m < (back 4).natAbs) ∧
     ((Sys2Proof.Num.roundAt 0 neg m e q).2 = false ↔ back 0 = exact))

/-! ## Cross-lane and quad instructions, VRAND (14 R364-R366) -/

/-- The quad and lane exchanges read the values that stood before, from every lane named. -/
def Obligations.CrossLaneMoves : Prop :=
  ∀ (s : State) (d : BitVec 7) (a b : Src),
    (Claims.vectorReady s true [a, b] [d.toNat] →
      (∀ pat : BitVec 8, Claims.laneGives s (.qswz d a pat) d
        (fun l => srcLane s 0 a (4 * (l / 4) + (pat.extractLsb' (2 * (l % 4)) 2).toNat)) 0) ∧
      (∀ k : BitVec 2, Claims.laneGives s (.qbcast d a k) d (fun l => srcLane s 0 a (4 * (l / 4) + k.toNat)) 0) ∧
      Claims.laneGives s (.vshfl d a b) d (fun l =>
        if (srcLane s 0 b l).toNat % 128 < 96 then srcLane s 0 a ((srcLane s 0 b l).toNat % 128) else 0) 0) ∧
    (Claims.vectorReady s (ty s == 0x4) [a] [d.toNat] → rnd s ≤ 4 →
      let x (l : Nat) : Sys2Proof.Num.Val := Sys2Proof.Num.inF32 (flush s) (srcLane s 0x4 a l).toNat
      let diff (hi lo : Nat) : Nat × Word := toF32 s (Sys2Proof.Num.add (rnd s) (x hi) (x lo).neg)
      Claims.laneGives s (.qdx d a) d (fun l => BitVec.ofNat 32 (diff (2 * (l / 2) + 1) (2 * (l / 2))).1)
        (laneFlags (nonHelperMask s) (fun l => (diff (2 * (l / 2) + 1) (2 * (l / 2))).2)) ∧
      Claims.laneGives s (.qdy d a) d (fun l => BitVec.ofNat 32 (diff (4 * (l / 4) + l % 2 + 2) (4 * (l / 4) + l % 2)).1)
        (laneFlags (nonHelperMask s) (fun l => (diff (4 * (l / 4) + l % 2 + 2) (4 * (l / 4) + l % 2)).2))) ∧
    (em s ≠ 0 → ∀ (r : BitVec 7) (sd : BitVec 6), vHeld s r.toNat = true →
      (∀ n : BitVec 8, n.toNat < 3 → ∃ v : Word,
        (∀ i, i < 32 → v.getLsbD i =
          (lane (nonHelperMask s) (32 * n.toNat + i) && vget s r.toNat (32 * n.toNat + i) != 0)) ∧
        Claims.scalarGives s (.vballot sd (.v r) n) sd false (v.setWidth 64) 0) ∧
      (srcScalarOk b = true → Claims.scalarGives s (.vreadl sd (.v r) b) sd false
        ((if (srcLane s 0 b 0).toNat % 128 < 96 then vget s r.toNat ((srcLane s 0 b 0).toNat % 128) else 0).setWidth 64) 0)) ∧
    (em s ≠ 0 → vHeld s d.toNat = true → srcScalarOrConst a = true → srcScalarOrConst b = true →
      let i := (srcLane s 0 b 0).toNat % 128
      Claims.goes (.vwritel d a b) s (fun t =>
        Claims.writesVector s t d.toNat (if i < 96 then BitVec.twoPow 96 i else 0) 0 ∧
        (i < 96 → vget t d.toNat i = srcLane s 0 a 0)))

/-- VRAND (R366): its word has zero source fields; in ascending order each active non-helper lane takes one step of the generator and the
new w, a helper lane takes 0 and no step; the state of the generator is what is left, zero where it was zero. The state is what
SYSR and SYSW find in RAND0 to RAND3; a launched wave has it seeded from the linear group index and the wave index, and it
survives phase ends and saves. -/
def Obligations.RandomDrawsInLaneOrder : Prop :=
  (∀ (s : State) (d : BitVec 7), em s ≠ 0 → vHeld s d.toNat = true →
    let next (r : Rand) : Rand :=
      let t := r.x ^^^ (r.x <<< 11)
      { x := r.y, y := r.z, z := r.w, w := r.w ^^^ (r.w >>> 19) ^^^ t ^^^ (t >>> 8) }
    let before (l : Nat) : Rand := (List.range l).foldl (fun r k => if lane (nonHelperMask s) k then next r else r) s.w.rand
    Claims.goes (.vrand d) s (fun t =>
      t = { s with w := { s.w with vreg := t.w.vreg, trap := { s.w.trap with tv := t.w.trap.tv }, pc := s.w.pc + 4,
                                   rand := before 96 } } ∧
      (∀ l, l < 96 → vget t d.toNat l =
        if lane (nonHelperMask s) l then (next (before l)).w
        else if lane (activeMask s) l then 0 else vget s d.toNat l) ∧
      (∀ n, n ≠ d.toNat → vrow t n = vrow s n) ∧
      (s.w.rand = {} → t.w.rand = {} ∧ ∀ l, l < 96 → lane (activeMask s) l = true → vget t d.toNat l = 0))) ∧
  (∀ d : BitVec 7, ∃ w : Word, encode (.vrand d) = some w ∧ w.extractLsb' 0 16 = 0 ∧ w.extractLsb' 16 7 = d) ∧
  (∀ (s : State) (d r : BitVec 6), em s ≠ 0 → activeMask s ≠ 0 →
    let v := sget s r.toNat
    let reads (n : BitVec 8) (x : Word) : Prop := Claims.scalarGives s (.sysr d n) d false (x.setWidth 64) 0
    let writes (n : BitVec 8) (x : Rand) : Prop :=
      exec (.sysw n (.s r)) s = .next { s with w := { s.w with rand := x, pc := s.w.pc + 4 } }
    reads 0x0C s.w.rand.x ∧ reads 0x0D s.w.rand.y ∧ reads 0x0E s.w.rand.z ∧ reads 0x0F s.w.rand.w ∧
    writes 0x0C { s.w.rand with x := v } ∧ writes 0x0D { s.w.rand with y := v } ∧ writes 0x0E { s.w.rand with z := v } ∧
    writes 0x0F { s.w.rand with w := v }) ∧
  (∀ (g : Group) (spill : Nat) (name : BitVec 64) (i : Nat), (launchWave g spill name i).rand =
    { x := BitVec.ofNat 32 g.linear, y := BitVec.ofNat 32 i, z := 0x6C078965, w := 0x9E3779B9 }) ∧
  (∀ (d : Desc) (w : Wave), (phaseWave d w).rand = w.rand ∧ (savedWave w).rand = w.rand) ∧
  (∃ f ∈ waveFields, ∀ w x : Wave, (f.set (f.get w) x).rand = w.rand)

/-! ## Control flow (14 R368-R373; 06 R150-R156) -/

/-- The transfers of the whole wave act whatever the mask: BRS, JMP, CALL, RET, JR and JR.link go to their target
(R369); RET and JR to a target with bits [63:56] set trap with XLATE cause 0. SLOOP counts sN down by one and jumps
while the count is not zero; s60-s63 raise ILLOP with detail 1. NOP and WAITF with its flags clear only go on; YIELD
outside trap mode goes on too, its wave exchanged in its slot with the ready pending wave that entered earliest, if there is
one and no place is to be filled first; WAITF with a named flag set waits at its own address; MODE writes (mode and not b) or
(a and b), bits [31:22] staying zero, whatever the mask. -/
def Obligations.WaveTransfersLoopsAndWaits : Prop :=
  (∀ (s : State) (n m : BitVec 6) (r : BitVec 6) (b : Src) (off : BitVec 16),
     (sget s n.toNat = 0 → exec (.brsZ n off) s = .next (Claims.jumps s (Claims.branchTarget s off.toInt)) ∧
       exec (.brsNz n off) s = .next (Claims.goesOn s)) ∧
     (sget s n.toNat ≠ 0 → exec (.brsZ n off) s = .next (Claims.goesOn s) ∧
       exec (.brsNz n off) s = .next (Claims.jumps s (Claims.branchTarget s off.toInt))) ∧
     exec (.jmp off) s = .next (Claims.jumps s (Claims.branchTarget s off.toInt)) ∧
     (m ≠ 60 → m ≠ 62 → m.toNat % 2 = 0 →
       Claims.goes (.call m off) s (fun t => Claims.linksAndJumps s t m.toNat (Claims.branchTarget s off.toInt))) ∧
     (r.toNat % 2 = 0 →
       let t := sget64 s r.toNat
       let u := t + (srcLane s (ty s) b 0).signExtend 64
       (t.extractLsb' 56 8 = 0 → exec (.ret (.s r)) s = .next (Claims.jumps s (Claims.codeAddr t))) ∧
       (t.extractLsb' 56 8 ≠ 0 →
         exec (.ret (.s r)) s = .next (takeTrap { cause := 0x08, detail := 0, addr := t.toNat % 2 ^ 56 } s)) ∧
       (srcScalarOk b = true → u.extractLsb' 56 8 = 0 →
         exec (.jr (.s r) b) s = .next (Claims.jumps s (Claims.codeAddr u)) ∧
         (m ≠ 60 → m ≠ 62 → m.toNat % 2 = 0 →
           Claims.goes (.jrLink m (.s r) b) s (fun t => Claims.linksAndJumps s t m.toNat (Claims.codeAddr u)))) ∧
       (srcScalarOk b = true → u.extractLsb' 56 8 ≠ 0 →
         exec (.jr (.s r) b) s = .next (takeTrap { cause := 0x08, detail := 0, addr := u.toNat % 2 ^ 56 } s)))) ∧
  (∀ (s : State) (n : BitVec 6) (off : BitVec 16),
     (n.toNat < 60 → Claims.goes (.sloop n off) s (fun t =>
       t = { s with w := { s.w with
         sreg := t.w.sreg
         pc := if sget s n.toNat = 1 then s.w.pc + 4 else Claims.branchTarget s off.toInt
         clause := if sget s n.toNat = 1 then s.w.clause else none } } ∧
       sget t n.toNat = sget s n.toNat - 1 ∧ ∀ k, k ≠ n.toNat → sget t k = sget s k)) ∧
     (60 ≤ n.toNat → exec (.sloop n off) s = .next (takeTrap { cause := 0x01, detail := 1 } s))) ∧
  (∀ (s : State) (f : BitVec 12) (r q : BitVec 6),
     exec .nop s = .next (Claims.goesOn s) ∧
     (s.w.trap.on = false →
       let x := slotNow s s.g.die s.g.core (s.w.idx % 4)
       (em s = 0 ∨ (∀ h ∈ x.pending, readyWave s h = false) ∨ s.w.handle ∉ x.active ∨ fillDue s x = true →
         exec .yield s = .next (Claims.goesOn s)) ∧
       (∀ p, em s ≠ 0 → x.pending.find? (readyWave s) = some p → s.w.handle ∈ x.active → s.w.handle ∉ x.pending → p ∉ x.active →
         fillDue s x = false → Claims.goes .yield s (fun t => t = { Claims.goesOn s with slots := t.slots } ∧
           let y := slotGet t s.g.die s.g.core (s.w.idx % 4)
           y.active = x.active.erase s.w.handle ++ [p] ∧ y.pending = x.pending.erase p ++ [s.w.handle]))) ∧
     ((∀ i, i < 12 → f.getLsbD i = true → Tab.get 0 s.w.flag i = 0) →
       exec (.waitf f) s = .next { s with w := { s.w with pc := s.w.pc + 4, status := .ready } }) ∧
     ((∃ i, i < 12 ∧ f.getLsbD i = true ∧ Tab.get 0 s.w.flag i ≠ 0) →
       exec (.waitf f) s = .next { s with w := { s.w with status := .waiting (.flags f) } }) ∧
     exec (.mode (.s r) (.s q)) s = .next { s with w := { s.w with
       mode := (s.w.mode &&& ~~~(sget s q.toNat) ||| sget s r.toNat &&& sget s q.toNat) &&& 0x3FFFFF
       pc := s.w.pc + 4 } } ∧
     (∀ (j k : BitVec 4), exec (.mode (.nat j) (.nat k)) s = .next { s with w := { s.w with
       mode := (s.w.mode &&& ~~~(k.setWidth 32) ||| j.setWidth 32 &&& k.setWidth 32) &&& 0x3FFFFF
       pc := s.w.pc + 4 } }))

/-- BR that takes no lane goes on; with every divided lane on one side, or both sides at the following word, the wave goes there
whole, a transfer (log 45 for the latter); otherwise,
with no ejection and room on the stack, the side of the lowest active non-helper lane runs first, its helper lanes
following, and the other side is pushed as a path entry that carries cur_rpc; pushed out of the end of a terminal clause it
has still to raise ILLOP (R375). JX: with no active non-helper lane the
wave goes on; an index at or beyond the table's count traps with TABLERANGE concerning those lanes, the lowest in
TRAP_DETAIL; with every lane of the mask on one table entry the wave goes to that entry's target. The reads leave
only translations and cache state behind. -/
def Obligations.BranchesAndJumpTablesDivideTheMask : Prop :=
  (∀ (s : State) (inv : Bool) (g : BitVec 3) (off : BitVec 16),
     let lanes := em s &&& ~~~(helperMask s)
     let taken := nonHelperMask s &&& (if inv then ~~~(pget s g.toNat) else pget s g.toNat)
     let other := lanes &&& ~~~taken
     let tgt := Claims.branchTarget s off.toInt
     let low (m : LaneMask) : Nat := (lowLane (if m &&& nonHelperMask s = 0 then m else m &&& nonHelperMask s)).getD 96
     (taken = 0 → exec (.br inv g off) s = .next (Claims.goesOn s)) ∧
     (taken ≠ 0 → other = 0 ∨ tgt = s.w.pc + 4 → exec (.br inv g off) s = .next (Claims.jumps s tgt)) ∧
     (taken ≠ 0 → other ≠ 0 → tgt ≠ s.w.pc + 4 → s.w.trap.on = false → s.w.batches = 0 → s.w.stack.length < 16 →
       (∀ j d, topJoin s.w.stack = some (j, d) → j.eject = false ∧ j.rpc = curRpc s.w) →
       let first := if low taken < low other then taken else other
       let second := if low taken < low other then other else taken
       let pcOf (m : LaneMask) : Pc := if m = taken then tgt else s.w.pc + 4
       Claims.goes (.br inv g off) s (fun t =>
         t = { s with w := { s.w with
           sreg := t.w.sreg
           stack := { kind := .path, mask := second ||| followers s second, pc := pcOf second, rpc := curRpc s.w,
                      live := 0, eject := false } :: s.w.stack
           pc := pcOf first
           clause := if first = taken then none else s.w.clause
           fell := if endsTerminal s && second != taken then s.w.fell ++ [(second ||| followers s second, s.w.pc + 4)]
             else s.w.fell } } ∧
         Claims.masksTo s t (first ||| followers s first)))) ∧
  (∀ (s : State) (d : BitVec 6) (a : Src), srcNotReserved a = true → srcHeld s a = true → d.toNat % 2 = 0 →
     let tbl := (sget64 s d.toNat).toNat / 4 * 4
     let idx (l : Nat) : Nat := (srcLane s 0 a l).toNat
     (nonHelperMask s = 0 → exec (.jx d a) s = .next (Claims.goesOn s)) ∧
     (∀ count l : Nat, nonHelperMask s ≠ 0 → readNow s tbl 4 = .ok count → l < 96 → lane (nonHelperMask s) l = true →
       count ≤ idx l → (∀ k, k < l → lane (nonHelperMask s) k = true → idx k < count) →
       ∃ m : LaneMask, (∀ k, k < 96 → (lane m k = true ↔ lane (nonHelperMask s) k = true ∧ count ≤ idx k)) ∧
         exec (.jx d a) s = .next (takeTrap { cause := 0x03, detail := l, lanes := some m } s)) ∧
     (∀ count i o : Nat, nonHelperMask s ≠ 0 → em s &&& ~~~(guardMask s) = 0 → readNow s tbl 4 = .ok count → i < count →
       (∀ l, l < 96 → lane (nonHelperMask s) l = true → idx l = i) → readNow s ((tbl + 4 + 4 * i) % 2 ^ 64) 4 = .ok o →
       Claims.goes (.jx d a) s (fun t =>
         t = { s with xlt := t.xlt, coh := t.coh, mem := { s.mem with stale := t.mem.stale }
                      w := { s.w with pc := BitVec.ofInt 56 ((tbl : Int) + 4 * sext o 32), clause := none } })))

/-- JOIN.AT pushes a join entry with the mask, its target as pc and reconvergence address, and its flags; on a
Bivouac core it only goes on; with the eject flag and more live registers than held blocks it traps with ILLOPND
detail 1. EXIT: the active non-helper lanes leave the mask and every entry of the stack; with a lane left the wave
goes on; with none left it goes to the top entry that still holds a lane, or with an empty stack has executed EXIT. -/
def Obligations.JoinPushesAndExitRemoves : Prop :=
  (∀ (s : State) (l : BitVec 4) (e : Bool) (off : BitVec 18),
     (s.lane.isSome = true → exec (.joinAt l e off) s = .next (Claims.goesOn s)) ∧
     (s.lane = none → e = true → s.w.vblocks < l.toNat →
       exec (.joinAt l e off) s = .next (takeTrap { cause := 0x02, detail := 1 } s)) ∧
     (s.lane = none → (e = true → l.toNat ≤ s.w.vblocks) → s.w.trap.on = false → s.w.stack.length < 16 →
       exec (.joinAt l e off) s = .next { s with w := { s.w with
         stack := { kind := .join, mask := em s, pc := Claims.branchTarget s off.toInt,
                    rpc := some (Claims.branchTarget s off.toInt), live := l.toNat, eject := e } :: s.w.stack
         pc := s.w.pc + 4 } })) ∧
  (∀ s : State, s.lane = none → s.w.trap.on = false → s.w.batches = 0 → s.w.ejected = [] →
     let m := nonHelperMask s
     let left := em s &&& ~~~m
     let stack := if m = 0 then s.w.stack else s.w.stack.map (fun e => { e with mask := e.mask &&& ~~~m })
     let gone := if m = 0 then s.w.gone else s.w.gone ||| m
     (left ≠ 0 → Claims.goes .exit s (fun t =>
       t = { s with w := { s.w with sreg := t.w.sreg, stack := stack, gone := gone, pc := s.w.pc + 4 } } ∧
       Claims.masksTo s t left)) ∧
     (left = 0 → stack = [] → Claims.goes .exit s (fun t =>
       t = { s with w := { s.w with sreg := t.w.sreg, stack := [], gone := gone, status := .exited },
                    g := { s.g with gbarGen := t.g.gbarGen, gbarArr := t.g.gbarArr } } ∧
       Claims.masksTo s t 0 ∧ (s.g.gbarArr = [] → t.g = s.g))) ∧
     (∀ e rest, left = 0 → stack = e :: rest → e.mask &&& ~~~gone ≠ 0 → Claims.goes .exit s (fun t =>
       t = { s with w := { s.w with sreg := t.w.sreg, stack := rest, gone := gone, pc := e.pc, clause := none } } ∧
       Claims.masksTo s t (e.mask &&& ~~~gone))))

/-! ## Traps and system registers (04 R116-R121; 16 R428-R434) -/

/-- Taking a trap (R116, R458): the trap registers hold cause, detail, address, return pc, mask and mode; em0-em2
hold the lanes concerned, or every lane that has not executed EXIT where those are none; guard select and invert are
zero; trap mode is on with its four stack entries free, whatever tv0 to tv15 hold (log 42); the wave enters code at the context's
trap vector, and other waves run on. With a trap vector of zero no trap register is written, and HALT_LOG takes the trap's cause. The fault
entry that the trap reports leaves the list, and the sectors it met with a mismatch take their poison pattern; the walks that
ended in the fault are noted as ended (07 R195). -/
def Obligations.TrapEntrySavesAndVectors : Prop :=
  ∀ (s : State) (x : Trap), s.lane = none → s.w.trap.on = false →
    let m := x.lanes.getD (em s)
    let t := takeTrap x s
    let walked := x.walks.map (fun a => (s.g.die, s.g.ctx, a))
    (∀ n, sectorDev t n = if n ∈ x.bad then 0xFFFF else sectorDev s n) ∧
    (∀ n, locDev t.g n = if n ∈ x.badLoc then 0xFFFF else locDev s.g n) ∧
    (x.entry = none → t.w.keys.faults = s.w.keys.faults) ∧
    (∀ e, x.entry = some e → t.w.keys.faults = s.w.keys.faults.erase e) ∧
    ((ctxGet s s.g.ctx).trapvec ≠ 0 →
      t = { s with
        mem := { s.mem with dev := t.mem.dev }
        g := { s.g with ldev := t.g.ldev }
        xlt := { s.xlt with ended := walked ++ s.xlt.ended }
        w := { s.w with
          sreg := t.w.sreg
          keys := { s.w.keys with faults := t.w.keys.faults }
          trap := { on := true, cause := BitVec.ofNat 32 x.cause, detail := BitVec.ofNat 32 x.detail,
                    pc := if x.after then s.w.pc + 4 else s.w.pc, addr := BitVec.ofNat 56 x.addr, em := em s, mode := s.w.mode,
                    tv := t.w.trap.tv, stack := [] }
          mode := s.w.mode &&& 0xFFFFFFF0
          pc := BitVec.ofNat 56 (ctxGet s s.g.ctx).trapvec
          clause := none
          status := .ready
          rejoinSoft := false } } ∧
      Claims.masksTo s t (if m = 0 then ~~~s.w.gone else m)) ∧
    ((ctxGet s s.g.ctx).trapvec = 0 →
      t.w = { s.w with status := .halted, keys := { s.w.keys with faults := t.w.keys.faults } } ∧
      (ctxGet t s.g.ctx).halt.cause = x.cause)

/-- TRAP and BKPT, outside trap mode and with a trap vector: with an active non-helper lane they take the trap with
their immediate in TRAP_DETAIL, those lanes concerned and the next instruction in TRAP_PC; with none they only go
on. TRET in trap mode with an active lane and no entry of the handler's stack in use: em0-em2, mode and pc come back
from TRAP_EM, TRAP_MODE and TRAP_PC, trap mode ends and the shadow registers are discarded; lanes that a recall without room
left on their threads are free again, unless that recall's trap is still due (06 Table 6-5). -/
def Obligations.TrapInstructionsAndReturn : Prop :=
  (∀ (s : State) (imm : BitVec 16),
     (nonHelperMask s = 0 → exec (.trap imm) s = .next (Claims.goesOn s) ∧ exec (.bkpt imm) s = .next (Claims.goesOn s)) ∧
     (nonHelperMask s ≠ 0 → s.lane = none → s.w.trap.on = false → (ctxGet s s.g.ctx).trapvec ≠ 0 →
       ∀ i ∈ [(Instr.trap imm, (0x0F : Word)), (.bkpt imm, 0x0E)], Claims.goes i.1 s (fun t =>
         t.w.trap.on = true ∧ t.w.trap.cause = i.2 ∧ t.w.trap.detail = imm.setWidth 32 ∧ t.w.trap.addr = 0 ∧
         t.w.trap.pc = s.w.pc + 4 ∧ t.w.trap.em = em s ∧ t.w.trap.mode = s.w.mode ∧
         t.w.pc = BitVec.ofNat 56 (ctxGet s s.g.ctx).trapvec ∧ t.w.mode = s.w.mode &&& 0xFFFFFFF0 ∧
         Claims.masksTo s t (nonHelperMask s) ∧ t.mem = s.mem ∧ t.g = s.g ∧ t.ops = s.ops ∧ t.w.keys = s.w.keys ∧
         t.w.astat = s.w.astat ∧ t.w.vreg = s.w.vreg ∧ t.w.pred = s.w.pred ∧ t.w.stack = s.w.stack))) ∧
  (∀ s : State,
     (em s ≠ 0 → activeMask s ≠ 0 → s.w.trap.on = true → s.w.trap.stack = [] → Claims.goes .tret s (fun t =>
       t = { s with w := { s.w with
         sreg := t.w.sreg, mode := s.w.trap.mode, pc := s.w.trap.pc, clause := none
         trap := { s.w.trap with on := false, tv := [] }
         ejected := s.w.ejected.map (fun e => { e with stuck := e.stuck && s.w.stackDue.isSome }) } } ∧
       Claims.masksTo s t s.w.trap.em)) ∧
     (em s ≠ 0 → s.w.trap.on = false → exec .tret s = .next (takeTrap { cause := 0x01, detail := 1 } s)))

/-- A double fault (R121, R430): a trap inside the handler, or with a trap vector of zero, halts the wave and stops
the group's other waves; HALT_LOG takes the cause, counts one more, and names the pc and the wave; no register
changes. What the spec names as double faults in a handler (R121): EXIT, YIELD, GBAR, GBAR.PHASE, BWAIT, YIELD.B,
VCLAIM and XCLAIM in trap mode, and TRET while an entry of the handler's stack is in use. -/
def Obligations.DoubleFaultsHalt : Prop :=
  (∀ (s : State) (x : Trap), s.lane = none → (s.w.trap.on = true ∨ (ctxGet s s.g.ctx).trapvec = 0) →
     let t := takeTrap x s
     let c := ctxGet s s.g.ctx
     let cause := if s.w.trap.on then s.w.trap.cause.toNat else x.cause
     t = { s with
       mem := { s.mem with dev := t.mem.dev }
       w := { s.w with status := .halted, keys := { s.w.keys with faults := t.w.keys.faults } }
       g := { s.g with err := true, peers := t.g.peers, ldev := t.g.ldev }
       ctxs := t.ctxs
       xlt := { s.xlt with ended := x.walks.map (fun a => (s.g.die, s.g.ctx, a)) ++ s.xlt.ended } } ∧
     (x.entry = none → t.w.keys.faults = s.w.keys.faults) ∧ (∀ n, n ∉ x.bad → sectorDev t n = sectorDev s n) ∧
     (∀ n, n ∉ x.badLoc → locDev t.g n = locDev s.g n) ∧
     (∀ k, k ≠ s.g.ctx → ctxGet t k = ctxGet s k) ∧
     ctxGet t s.g.ctx = { c with halt := { cause := cause, count := min (c.halt.count + 1) (2 ^ 24 - 1),
                                           pc := s.w.pc.extractLsb' 0 32, handle := s.w.handle } } ∧
     t.g.peers.length = s.g.peers.length ∧
     ∀ (k : Nat) (w : Wave), s.g.peers[k]? = some w → w.status ≠ .exited → w.status ≠ .halted →
       t.g.peers[k]? = some { w with status := .stopped }) ∧
  (∀ (s : State) (n : BitVec 2) (k : BitVec 4) (d : BitVec 6) (p : Bool) (a b : Src) (c : BitVec 16) (i : Instr),
     s.lane = none → s.w.trap.on = true → someNonHelper s = true →
     i ∈ [Instr.exit, .yield, .gbar n k, .gbarPhase k, .bwait a b, .yieldB d p a b] ∨
       (i = .tret ∧ activeMask s ≠ 0 ∧ s.w.trap.stack ≠ []) ∨
       (i = .vclaim c ∧ s.w.vblocks + c.toNat ≤ 16) ∨
       (i = .xclaim c ∧ s.w.tiles + c.toNat ≤ 16) →
     ∃ t, exec i s = .next t ∧ t.w.status = .halted ∧ t.mem = s.mem ∧ t.w.sreg = s.w.sreg ∧ t.w.pc = s.w.pc)

/-- SYSR: the registers of Table 16-6 read as the state holds them; the trap registers only in trap mode, and any
other number raises ILLOP with detail 4. With no active lane sd keeps its value. SYSW: a 1 clears a bit of astat;
HMASK, RAND and, in trap mode, TRAP_PC, TRAP_EM and TRAP_MODE take the value, TRAP_PC with bits [1:0] and TRAP_MODE
with bits [31:22] zero; every other number raises ILLOP with detail 4. STIME writes the module time counter, 32 or
64 bits, which has moved on by a number of clks that nothing fixes (log 7: each reading is at least one clk later
than the one before, up to the counter's last value, and never lower; a free value). Where lanes are in the mask but none is active, all three only go on. -/
def Obligations.SystemRegistersReadAndWrite : Prop :=
  (∀ (s : State) (d : BitVec 6), em s ≠ 0 → activeMask s ≠ 0 →
     let reads (n : BitVec 8) (v : Word) : Prop := Claims.scalarGives s (.sysr d n) d false (v.setWidth 64) 0
     let t := s.w.trap
     reads 0x00 s.w.mode ∧ reads 0x01 s.w.role ∧ reads 0x02 s.w.astat ∧
     reads 0x04 (s.w.hmask.extractLsb' 0 32) ∧ reads 0x05 (s.w.hmask.extractLsb' 32 32) ∧
     reads 0x06 (s.w.hmask.extractLsb' 64 32) ∧
     reads 0x08 (s.w.name.extractLsb' 0 32) ∧ reads 0x09 (s.w.name.extractLsb' 32 32) ∧
     reads 0x0C s.w.rand.x ∧ reads 0x0D s.w.rand.y ∧ reads 0x0E s.w.rand.z ∧ reads 0x0F s.w.rand.w ∧
     (∀ v : Word, v.extractLsb' 0 4 = BitVec.ofNat 4 s.w.idx → v.extractLsb' 4 4 = BitVec.ofNat 4 (s.w.idx % 4) →
       v.extractLsb' 8 5 = BitVec.ofNat 5 s.w.vblocks → v.extractLsb' 13 5 = BitVec.ofNat 5 s.w.tiles →
       v.extractLsb' 18 5 = BitVec.ofNat 5 s.w.stack.length → v.getLsbD 23 = t.on →
       v.extractLsb' 24 7 = BitVec.ofNat 7 s.w.ejected.length → v.getLsbD 31 = false → reads 0x03 v) ∧
     (t.on = true → reads 0x10 t.cause ∧ reads 0x11 t.detail ∧ reads 0x12 (t.pc.extractLsb' 0 32) ∧
       reads 0x13 ((t.pc.extractLsb' 32 24).setWidth 32) ∧ reads 0x14 (t.addr.extractLsb' 0 32) ∧
       reads 0x15 ((t.addr.extractLsb' 32 24).setWidth 32) ∧ reads 0x16 (t.em.extractLsb' 0 32) ∧
       reads 0x17 (t.em.extractLsb' 32 32) ∧ reads 0x18 (t.em.extractLsb' 64 32) ∧ reads 0x19 t.mode) ∧
     Claims.goes (.sysr d 0x20) s (fun t =>
       t = { s with w := { s.w with sreg := t.w.sreg, pc := s.w.pc + 4 }, fresh := t.fresh } ∧
       (∃ v : Word, sget t d.toNat = Claims.regAfter s d.toNat v ∧ v.getLsbD 0 = s.g.preempt.isSome ∧
         (∀ i, 1 ≤ i → i < 16 → v.getLsbD i = false) ∧ (s.g.preempt = none → v = 0)) ∧
       ∀ n, n ≠ d.toNat → sget t n = sget s n) ∧
     reads 0x21 (BitVec.ofNat 32 (if (ctxGet s s.g.ctx).softrejoin = 0 then 65536 else (ctxGet s s.g.ctx).softrejoin)) ∧
     reads 0x22 ((BitVec.ofNat 56 (ctxGet s s.g.ctx).trapvec).extractLsb' 0 32) ∧
     reads 0x23 (((BitVec.ofNat 56 (ctxGet s s.g.ctx).trapvec).extractLsb' 32 24).setWidth 32) ∧
     (∀ n : BitVec 8, (t.on = false ∧ 0x10 ≤ n.toNat ∧ n.toNat ≤ 0x19) ∨ n.toNat ∈ [0x07, 0x0A, 0x0B] ∨
       (0x1A ≤ n.toNat ∧ n.toNat ≤ 0x1F) ∨ 0x24 ≤ n.toNat →
       exec (.sysr d n) s = .next (takeTrap { cause := 0x01, detail := 4 } s))) ∧
  (∀ (s : State) (r : BitVec 6), em s ≠ 0 → activeMask s ≠ 0 →
     let v := sget s r.toNat
     let writes (n : BitVec 8) (w : Wave) : Prop := exec (.sysw n (.s r)) s = .next { s with w := { w with pc := s.w.pc + 4 } }
     let h := s.w.hmask
     let t := s.w.trap
     writes 0x02 { s.w with astat := s.w.astat &&& ~~~v } ∧
     writes 0x04 { s.w with hmask := h.extractLsb' 32 64 ++ v } ∧
     writes 0x05 { s.w with hmask := h.extractLsb' 64 32 ++ (v ++ h.extractLsb' 0 32) } ∧
     writes 0x06 { s.w with hmask := v ++ h.extractLsb' 0 64 } ∧
     writes 0x0C { s.w with rand := { s.w.rand with x := v } } ∧ writes 0x0D { s.w with rand := { s.w.rand with y := v } } ∧
     writes 0x0E { s.w with rand := { s.w.rand with z := v } } ∧ writes 0x0F { s.w with rand := { s.w.rand with w := v } } ∧
     (t.on = true →
       writes 0x12 { s.w with trap := { t with pc := t.pc.extractLsb' 32 24 ++ (v &&& 0xFFFFFFFC) } } ∧
       writes 0x13 { s.w with trap := { t with pc := v.extractLsb' 0 24 ++ t.pc.extractLsb' 0 32 } } ∧
       writes 0x16 { s.w with trap := { t with em := t.em.extractLsb' 32 64 ++ v } } ∧
       writes 0x17 { s.w with trap := { t with em := t.em.extractLsb' 64 32 ++ (v ++ t.em.extractLsb' 0 32) } } ∧
       writes 0x18 { s.w with trap := { t with em := v ++ t.em.extractLsb' 0 64 } } ∧
       writes 0x19 { s.w with trap := { t with mode := v &&& 0x3FFFFF } }) ∧
     (∀ n : BitVec 8, n.toNat ∉ [0x02, 0x04, 0x05, 0x06, 0x0C, 0x0D, 0x0E, 0x0F, 0x12, 0x13, 0x16, 0x17, 0x18, 0x19] →
       exec (.sysw n (.s r)) s = .next (takeTrap { cause := 0x01, detail := 4 } s))) ∧
  (∀ (s : State) (d r : BitVec 6) (n : BitVec 8) (v : Word), em s ≠ 0 → activeMask s = 0 →
     exec (.stime d false) s = .next (Claims.goesOn s) ∧
     (sysRead s n.toNat = some v → exec (.sysr d n) s = .next (Claims.goesOn s)) ∧
     (∀ w : Wave, sysWrite s n.toNat (sget s r.toNat) = some w → exec (.sysw n (.s r)) s = .next (Claims.goesOn s))) ∧
  (∀ (s : State) (d : BitVec 6) (p : Bool), em s ≠ 0 → activeMask s ≠ 0 → (p = true → d.toNat % 2 = 0) →
     Claims.goes (.stime d p) s (fun t =>
       min (s.time.toNat + 1) (2 ^ 64 - 1) ≤ t.time.toNat ∧
       t = { s with w := { s.w with sreg := t.w.sreg, pc := s.w.pc + 4 }, time := t.time, fresh := t.fresh } ∧
       sget t d.toNat = Claims.regAfter s d.toNat (t.time.extractLsb' 0 32) ∧
       (p = true → sget t (d.toNat + 1) = Claims.regAfter s (d.toNat + 1) (t.time.extractLsb' 32 32)) ∧
       ∀ n, n ≠ d.toNat → (p = true → n ≠ d.toNat + 1) → sget t n = sget s n))

/-! ## Keys (09 R230-R234; 15 R388-R390) -/

/-- KCLR, KJOIN and KFORK: the slots named close, each opening its next generation; the destination takes the empty
set, the union of the sets or the copy, less completed members; each fault entry's taint of the destination follows
its sources, k0 contributing nothing; a destination of k0 has no effect. KJOIN of a union with more than 8
tags closes its slots, waits with the union it took, and goes on once at most 8 of its tags are not drained.
That a slot named twice closes twice, and
that KJOIN closes its sources before it waits, is the pseudocode of R230 read as written (log 22). -/
def Obligations.KeySetsJoinForkAndClear : Prop :=
  ∀ (s : State) (kd ka kb : BitVec 4), someNonHelper s = true →
    (kd = 0 → exec (.kclr kd) s = .next (Claims.goesOn s) ∧ exec (.kjoin kd ka kb) s = .next (Claims.goesOn s) ∧
      exec (.kfork kd ka) s = .next (Claims.goesOn s)) ∧
    (kd ≠ 0 →
      let taint (k : BitVec 4) (e : FaultEntry) : Bool := k != 0 && e.slots.getLsbD k.toNat
      Claims.goes (.kclr kd) s (fun t => Claims.keysWith s t kd.toNat [] [kd.toNat] (fun _ => false)) ∧
      let u := (tagsOf s.w ka.toNat ++ tagsOf s.w kb.toNat).eraseDups
      (s.w.status = .ready → (u.filter (tagBusy s s.w)).length ≤ 8 →
        Claims.goes (.kjoin kd ka kb) s (fun t => Claims.keysWith s t kd.toNat (u.filter (tagBusy s s.w))
          [ka.toNat, kb.toNat, kd.toNat] (fun e => taint ka e || taint kb e))) ∧
      (s.w.status = .ready → 8 < (u.filter (tagBusy s s.w)).length →
        Claims.goes (.kjoin kd ka kb) s (fun t =>
          t = { s with w := { s.w with status := .waiting (.join u), keys := { s.w.keys with gen := t.w.keys.gen } } } ∧
          ∀ n, Tab.get 0 t.w.keys.gen n = if Claims.timesClosed n [ka.toNat, kb.toNat, kd.toNat] = 0 then Tab.get 0 s.w.keys.gen n
            else (Tab.get 0 s.w.keys.gen n + Claims.timesClosed n [ka.toNat, kb.toNat, kd.toNat]) % 4096)) ∧
      (∀ q : List Tag, s.w.status = .waiting (.join q) → (q.filter (tagBusy s s.w)).length ≤ 8 →
        Claims.goes (.kjoin kd ka kb) s (fun t => ∃ r : State,
          Claims.keysWith s r kd.toNat (q.filter (tagBusy s s.w)) [] (fun e => taint ka e || taint kb e) ∧
          t = { r with w := { r.w with status := .ready } })) ∧
      Claims.goes (.kfork kd ka) s (fun t => Claims.keysWith s t kd.toNat (tagsOf s.w ka.toNat)
        [ka.toNat, kd.toNat] (fun e => taint ka e)))

/-- KWAIT and FENCE go on once every member they found is performed at the captured scope, wait while one is not,
and trap at once for a fault entry that is due; KARR clears an arrival bit that is set and waits for one that is
not; KSTAT writes its snapshot. -/
def Obligations.KeyWaitsAndStatus : Prop :=
  ∀ (s : State) (k : BitVec 4) (d : BitVec 6), Claims.actsOnce s → scope s ≤ 5 → s.w.ksendOverdue = false →
    let ids := membersOf s s.w k.toNat
    (Claims.consumeMet s k.toNat (scope s) → exec (.kwait k) s = .next (Claims.goesOnReady s)) ∧
    (entryToTake s.w (some k.toNat) ids = none → (∃ id ∈ ids, performedAt s s.w (scope s) id = false) →
      exec (.kwait k) s = .next { s with w := { s.w with status := .waiting (.members (some k.toNat) (scope s) ids) } }) ∧
    (∀ e, entryToTake s.w (some k.toNat) ids = some e → exec (.kwait k) s =
      .next (takeTrap { cause := e.cause, detail := e.detail, addr := e.addr, entry := some e } s)) ∧
    (entryToTake s.w none (ownMembers s s.w) = none → (∀ id ∈ ownMembers s s.w, performedAt s s.w (scope s) id = true) →
      exec .fence s = .next (Claims.goesOnReady s)) ∧
    (k ≠ 0 → s.w.keys.arrival.getLsbD k.toNat = true → exec (.karr k) s = .next { s with w := { s.w with
      pc := s.w.pc + 4, status := .ready
      keys := { s.w.keys with arrival := s.w.keys.arrival &&& ~~~(BitVec.twoPow 16 k.toNat) } } }) ∧
    (k ≠ 0 → s.w.keys.arrival.getLsbD k.toNat = false →
      exec (.karr k) s = .next { s with w := { s.w with status := .waiting (.arrival k.toNat) } }) ∧
    (k ≠ 0 → (tagsOf s.w k.toNat).length < 16 → ∃ v : Word,
      v.extractLsb' 0 16 = BitVec.ofNat 16 (min 65535 (ids.countP (fun id => !performedAt s s.w (scope s) id))) ∧
      v.extractLsb' 16 4 = BitVec.ofNat 4 (tagsOf s.w k.toNat).length ∧
      v.getLsbD 20 = s.w.keys.arrival.getLsbD k.toNat ∧
      v.getLsbD 21 = s.w.keys.faults.any (fun e => e.slots.getLsbD k.toNat) ∧ v.extractLsb' 22 10 = 0 ∧
      Claims.scalarGives s (.kstat d k) d false (v.setWidth 64) 0)

/-- KSEND to another module leaves an operation in flight that carries the source's tags and tainting fault entries;
the source closes, the delivery joins no key but slot 0, and registers and memory stay (but for the section of a recipient that
is saved, 04 R112). To the sender's own name it
is KFORK into the slot named with its arrival bit set, or from k0 the arrival bit alone (R234 gives KFORK no effect of
its own there; log 22). Slot k0 as the recipient's raises ILLOP with detail 1. A held copy of a fault
entry is placed once the list has room, tainting the slots that hold its tag or await a delivery with it (log 22); a
delivery joins its slot and sets its arrival bit; a delivery to another module is complete once its members are
performed at fabric scope and a link reaches the recipient's module, and one made and not acknowledged marks its sender. -/
def Obligations.KeySendAndDelivery : Prop :=
  (∀ (s : State) (r : BitVec 6) (ks kr : BitVec 4), someNonHelper s = true → s.w.status ≠ .idle → r.toNat % 2 = 0 →
     let name := sget64 s r.toNat
     (kr ≠ 0 → name ≠ s.w.name → Claims.goes (.ksend (.s r) ks kr) s (fun t =>
       t.w.pc = s.w.pc + 4 ∧ Claims.keepsRegisters s t ∧ t.nextOp = s.nextOp + 1 ∧ (∀ a, locByte t.g a = locByte s.g a) ∧
       ((∀ w, recipient s name = some w → resident s w.handle = true) → ∀ a, memByte t a = memByte s a) ∧
       Tab.get 0 t.w.keys.gen ks.toNat =
         (if ks = 0 then Tab.get 0 s.w.keys.gen 0 else (Tab.get 0 s.w.keys.gen ks.toNat + 1) % 4096))) ∧
     (kr ≠ 0 → name = s.w.name → Claims.goes (.ksend (.s r) ks kr) s (fun t => ∃ u : State,
       Claims.keysWith s u kr.toNat (if ks = 0 then tagsOf s.w kr.toNat else tagsOf s.w ks.toNat)
         (if ks = 0 then [] else [ks.toNat, kr.toNat])
         (fun e => if ks = 0 then e.slots.getLsbD kr.toNat else e.slots.getLsbD ks.toNat) ∧
       t = { u with w := { u.w with keys := { u.w.keys with arrival := s.w.keys.arrival ||| BitVec.twoPow 16 kr.toNat } } })) ∧
     (kr ≠ 0 → name ≠ s.w.name → nameModule name ≠ s.fab.module → Claims.goes (.ksend (.s r) ks kr) s (fun t => ∃ o : Op,
       t.ops = s.ops ++ [o] ∧ o.id = s.nextOp ∧ o.owner = s.w.handle ∧ o.pc = s.w.pc ∧ o.scope = scope s ∧
       o.waits = membersOf s s.w ks.toNat ∧
       o.tag = some { handle := s.w.handle, slot := 0, gen := Tab.get 0 s.w.keys.gen 0 } ∧
       ∃ fs, o.kind = .ksend name kr.toNat (tagsOf s.w ks.toNat) fs true ∧
         fs.map (fun e => (e.cause, e.addr, e.detail)) =
           (s.w.keys.faults.filter (fun e => ks != 0 && e.slots.getLsbD ks.toNat)).map (fun e => (e.cause, e.addr, e.detail)) ∧
         ∀ e ∈ fs, e.slots = BitVec.twoPow 16 kr.toNat)) ∧
     (kr = 0 → exec (.ksend (.s r) ks kr) s = .next (takeTrap { cause := 0x01, detail := 1 } s))) ∧
  (∀ (s : State), s.w.status ≠ .idle →
     (∀ o ∈ s.ops, o.fault = none ∧ o.consume = 0) →
     let only (t : State) : Prop := t.w = { s.w with keys := t.w.keys } ∧ t.ops = s.ops ∧ Claims.keepsMemory s t
     (∀ (h : HeldFault) rest, s.w.keys.heldFaults = h :: rest → s.w.keys.faults.length < 4 → Claims.goes .faultCopyPlaced s (fun t =>
       only t ∧ t.w.keys.heldFaults = rest ∧ ∃ e : FaultEntry,
         t.w.keys.faults = s.w.keys.faults ++ [e] ∧ e.cause = h.entry.cause ∧ e.addr = h.entry.addr ∧ e.detail = h.entry.detail ∧
         ∀ k, k < 16 → k ≠ 0 → e.slots.getLsbD k =
           ((tagsOf s.w k).contains h.tag || s.w.keys.queue.any (fun d => d.slot == k && d.tags.contains h.tag)))) ∧
     (∀ d : Delivery, waveAnywhere s s.w.handle = some s.w → s.w.keys.queue = [d] → d.slot ≠ 0 → d.slot < 16 →
       let u := ((tagsOf s.w d.slot ++ d.tags).eraseDups).filter (fun x => tagBusy s s.w x)
       u.length ≤ 8 → s.w.keys.faults.length + d.faults.length ≤ 4 → Claims.goes .deliveryApply s (fun t =>
         only t ∧ t.w.keys.queue = [] ∧ tagsOf t.w d.slot = u ∧
         t.w.keys.arrival = s.w.keys.arrival ||| BitVec.twoPow 16 d.slot ∧ t.w.keys.faults = s.w.keys.faults ++ d.faults ∧
         ∀ k, k ≠ d.slot → tagsOf t.w k = tagsOf s.w k))) ∧
  (∀ (s : State) (o : Op) name k ts fs, findOp s o.id = some o → o.kind = .ksend name k ts fs true → s.w.status ≠ .idle →
     s.w.handle = o.owner → ∀ w, waveAnywhere s o.owner = some w → (∀ id ∈ o.waits, performedAt s w 5 id = true) →
     (nameReached s name = false → exec (.remoteKsendDeliver o.id) s = .next s) ∧
     (nameReached s name = true → Claims.goes (.remoteKsendDeliver o.id) s (fun t =>
       Claims.leavesFlight s t o ∧ Claims.keepsRegisters s t ∧ Claims.keepsMemory s t)) ∧
     Claims.goes (.ksendAckTimeout o.id) s (fun t => t.w = { s.w with ksendOverdue := true } ∧ t.ops = s.ops ∧
       Claims.keepsMemory s t))

/-! ## Barriers (15 R391-R399; 10 R258-R261) -/

/-- GBAR with its consume met, or with an all-zero mask, where the consume is empty (06 Table 6-7): the last arrival of a
generation ends it and goes on, and an earlier one waits for the end; GBAR.PHASE waits for the phase end with its pc at the
next word, and diverged raises PHASEDIV. -/
def Obligations.GroupBarriersGather : Prop :=
  ∀ (s : State) (n : BitVec 2) (k : BitVec 4), s.w.trap.on = false → scope s ≤ 5 → s.w.status = .ready →
    em s = 0 ∨ Claims.consumeMet s k.toNat (max (scope s) 1) →
    let arrived := Tab.get 0 s.g.gbarArr n.toNat + 1
    (unexited s ≤ arrived → Claims.goes (.gbar n k) s (fun t =>
      t = { s with w := { s.w with pc := s.w.pc + 4, status := .ready },
                   g := { s.g with gbarArr := t.g.gbarArr, gbarGen := t.g.gbarGen } } ∧
      Tab.get 0 t.g.gbarArr n.toNat = 0 ∧ Tab.get 0 t.g.gbarGen n.toNat = Tab.get 0 s.g.gbarGen n.toNat + 1 ∧
      ∀ m, m ≠ n.toNat → Tab.get 0 t.g.gbarArr m = Tab.get 0 s.g.gbarArr m ∧ Tab.get 0 t.g.gbarGen m = Tab.get 0 s.g.gbarGen m)) ∧
    (arrived < unexited s → Claims.goes (.gbar n k) s (fun t =>
      t = { s with w := { s.w with status := .waiting (.gbar n.toNat (Tab.get 0 s.g.gbarGen n.toNat)) },
                   g := { s.g with gbarArr := t.g.gbarArr } } ∧
      Tab.get 0 t.g.gbarArr n.toNat = arrived ∧ ∀ m, m ≠ n.toNat → Tab.get 0 t.g.gbarArr m = Tab.get 0 s.g.gbarArr m)) ∧
    (s.w.stack = [] → s.w.batches = 0 → s.w.ejected = [] →
      exec (.gbarPhase k) s = .next { s with w := { s.w with pc := s.w.pc + 4, status := .waiting .phaseEnd } }) ∧
    (s.w.stack ≠ [] → exec (.gbarPhase k) s = .next (takeTrap { cause := 0x07, detail := 0 } s))

/-- BINIT sets phase 0, both counts to their values and the yield list empty, and stores nothing beyond the 16
bytes (but for the section of a yielded wave that is saved, 04 R112). BEXPECT adds to the pending sectors and BARRIVE takes one from the pending arrivals, modulo nothing else:
while either count is left the barrier keeps its phase; when both are zero the phase advances modulo 16 and the
counts reload. That the reserved bits of a
barrier are written as zero, and that a BARRIVE whose key is performed counts at once, is the model's reading (log 26). -/
def Obligations.BarrierInitialisedAndCounted : Prop :=
  (∀ (s : State) (a : Src) (r : BitVec 6) (off : Nat), someNonHelper s = true → Claims.barrierAt s a off → r.toNat % 2 = 0 →
     let v := sget64 s r.toNat
     let arr := (v.extractLsb' 0 12).toNat
     let exp := (v.extractLsb' 32 32).toNat
     Claims.goes (.binit a (.s r)) s (fun t =>
       t.w.pc = s.w.pc + 4 ∧ Claims.barrierIs t.g off 0 arr arr exp exp 0 ∧ Claims.keepsRegisters s t ∧
       (∀ x, x < off ∨ off + 16 ≤ x → locByte t.g x = locByte s.g x) ∧
       ((barGet s.g off).yielded = 0 ∨ (∀ x ∈ s.records, resident s x.handle = true) → ∀ x, memByte t x = memByte s x))) ∧
  (∀ (s : State) (a b : Src) (k : BitVec 4) (off phase reload arrivals sectors expected : Nat),
     someNonHelper s = true → Claims.ownFocus s → Claims.barrierAt s a off → srcScalarOk b = true → s.held = [] →
     Claims.barrierIs s.g off phase reload arrivals sectors expected 0 →
     let n := (srcLane s (ty s) b 0).toNat
     let after (t : State) (arr sec : Nat) : Prop :=
       t.w.pc = s.w.pc + 4 ∧ Claims.storesLocal s t off 16 ∧ Claims.keepsRegisters s t ∧
       if arr = 0 ∧ sec = 0 then Claims.barrierIs t.g off ((phase + 1) % 16) reload reload expected expected 0
       else Claims.barrierIs t.g off phase reload arr sec expected 0
     Claims.goes (.bexpect a b) s (fun t => after t arrivals ((sectors + n) % 2 ^ 32)) ∧
     (0 < arrivals → scope s ≤ 5 → Claims.consumeMet s k.toNat (max (scope s) 1) →
       Claims.goes (.barrive a k) s (fun t => after t (arrivals - 1) sectors)))

/-- BWAIT, BTEST and YIELD.B compare the phase field with the operand: another phase means that the phase asked for
has ended. BWAIT then goes on and else waits; BTEST writes 1 or 0; YIELD.B goes on at its continuation, or first
enters the yield list of the barrier. YIELD.B checks its continuation pair and its barrier in the model's order (log 14). -/
def Obligations.BarrierPhaseTests : Prop :=
  ∀ (s : State) (d : BitVec 6) (a b : Src) (off phase reload arrivals sectors expected yielded : Nat),
    Claims.actsOnce s → s.w.trap.on = false → Claims.barrierAt s a off → srcScalarOk b = true →
    Claims.barrierIs s.g off phase reload arrivals sectors expected yielded →
    let asked := (srcLane s (ty s) b 0).toNat % 16
    (phase ≠ asked →
      exec (.bwait a b) s = .next (Claims.goesOnReady s) ∧
      Claims.scalarGives s (.btest d a b) d false 1 0 ∧
      exec (.yieldB d false a b) s = .next (Claims.goesOn s) ∧
      (d.toNat % 2 = 0 → (sget64 s d.toNat).extractLsb' 56 8 = 0 →
        exec (.yieldB d true a b) s = .next (Claims.jumps s (Claims.codeAddr (sget64 s d.toNat))))) ∧
    (phase = asked →
      exec (.bwait a b) s = .next { s with w := { s.w with status := .waiting (.bwait off asked) } } ∧
      Claims.scalarGives s (.btest d a b) d false 0 0 ∧
      Claims.goes (.yieldB d false a b) s (fun t =>
        t.w = { s.w with pc := s.w.pc + 4, status := .yielded off asked } ∧ Claims.storesLocal s t off 16 ∧
        (s.w.idx < 16 → yielded < 2 ^ 16 → Claims.barrierIs t.g off phase reload arrivals sectors expected (yielded ||| 2 ^ s.w.idx)) ∧
        ((∀ y ∈ s.slots, y.active.Nodup ∧ y.pending.Nodup) →
          ∀ x ∈ t.slots, s.w.handle ∉ x.active ∧ s.w.handle ∉ x.pending)))

/-! ## Giving and claiming (05 R145-R149) -/

/-- VGIVE and XGIVE move the highest n units to the pool of the wave's slot, their contents lost; VCLAIM and XCLAIM,
with enough in the pool and no claim on it stalled, take n units that read zero, and else stall in order of issue, behind the
claims issued earlier; a wave with a claim stalled already waits for that one; a
count that is too large raises ILLOPND with detail 3 and moves nothing; n = 0 has no effect. The
blocks that VGIVE gives here hold no ejected lane's window. -/
def Obligations.SpaceMovesBetweenWaveAndPool : Prop :=
  ∀ (s : State) (n : BitVec 16), someNonHelper s = true →
    let slot := s.w.idx % 4
    (n = 0 → ∀ i ∈ [Instr.vgive n, .xgive n], exec i s = .next (Claims.goesOn s)) ∧
    (n = 0 → s.w.trap.on = false → ∀ i ∈ [Instr.vclaim n, .xclaim n], s.w.vblocks ≤ 16 → s.w.tiles ≤ 16 →
      exec i s = .next (Claims.goesOn s)) ∧
    (n ≠ 0 → n.toNat ≤ 16 → n.toNat ≤ s.w.vblocks → (∀ e ∈ s.w.ejected, e.live + n.toNat ≤ s.w.vblocks) → Claims.goes (.vgive n) s (fun t =>
      t = { s with w := { s.w with pc := s.w.pc + 4, vblocks := s.w.vblocks - n.toNat, vreg := t.w.vreg },
                   g := { s.g with vpool := t.g.vpool } } ∧
      (∀ v, v < 8 * (s.w.vblocks - n.toNat) → Tab.get [] t.w.vreg v = Tab.get [] s.w.vreg v) ∧
      Tab.get 0 t.g.vpool slot = Tab.get 0 s.g.vpool slot + n.toNat ∧
      ∀ m, m ≠ slot → Tab.get 0 t.g.vpool m = Tab.get 0 s.g.vpool m)) ∧
    (n ≠ 0 → n.toNat ≤ 16 → n.toNat ≤ s.w.tiles → Claims.goes (.xgive n) s (fun t =>
      t = { s with w := { s.w with pc := s.w.pc + 4, tiles := s.w.tiles - n.toNat, tile := t.w.tile, side := t.w.side },
                   g := { s.g with xpool := t.g.xpool } } ∧
      (∀ v, v < s.w.tiles - n.toNat → Tab.get [] t.w.tile v = Tab.get [] s.w.tile v ∧ Tab.get [] t.w.side v = Tab.get [] s.w.side v) ∧
      Tab.get 0 t.g.xpool slot = Tab.get 0 s.g.xpool slot + n.toNat ∧
      ∀ m, m ≠ slot → Tab.get 0 t.g.xpool m = Tab.get 0 s.g.xpool m)) ∧
    (s.w.trap.on = false → n ≠ 0 → n.toNat ≤ 16 →
      let queue (v : Bool) : List Claim := s.g.claims.filter (fun c => c.vector == v && c.wave % 4 == slot)
      let stalls (i : Instr) (v : Bool) : Prop :=
        ((∃ c ∈ s.g.claims, c.wave = s.w.idx) → exec i s = .next { s with w := { s.w with status := .waiting .claim } }) ∧
        ((∀ c ∈ s.g.claims, c.wave ≠ s.w.idx) → queue v ≠ [] ∨ poolGet s.g v slot < n.toNat →
          exec i s = .next { s with w := { s.w with status := .waiting .claim },
                                    g := { s.g with claims := s.g.claims ++ [{ wave := s.w.idx, vector := v, n := n.toNat }] } })
      (s.w.vblocks + n.toNat ≤ 16 → stalls (.vclaim n) true ∧
        ((∀ c ∈ s.g.claims, c.wave ≠ s.w.idx) → queue true = [] → n.toNat ≤ Tab.get 0 s.g.vpool slot → Claims.goes (.vclaim n) s (fun t =>
          t = { s with w := { s.w with pc := s.w.pc + 4, vblocks := s.w.vblocks + n.toNat, vreg := t.w.vreg },
                       g := { s.g with vpool := t.g.vpool } } ∧
          (∀ v l, v < 8 * s.w.vblocks → vget t v l = vget s v l) ∧
          (∀ v l, 8 * s.w.vblocks ≤ v → v < 8 * (s.w.vblocks + n.toNat) → vget t v l = 0) ∧
          Tab.get 0 t.g.vpool slot + n.toNat = Tab.get 0 s.g.vpool slot ∧
          ∀ m, m ≠ slot → Tab.get 0 t.g.vpool m = Tab.get 0 s.g.vpool m))) ∧
      (s.w.tiles + n.toNat ≤ 16 → stalls (.xclaim n) false ∧
        ((∀ c ∈ s.g.claims, c.wave ≠ s.w.idx) → queue false = [] → n.toNat ≤ Tab.get 0 s.g.xpool slot → Claims.goes (.xclaim n) s (fun t =>
          t = { s with w := { s.w with pc := s.w.pc + 4, tiles := s.w.tiles + n.toNat, tile := t.w.tile, side := t.w.side },
                       g := { s.g with xpool := t.g.xpool } } ∧
          (∀ x r c, x < s.w.tiles → xget t.w x r c = xget s.w x r c ∧ sideGet t.w x r = sideGet s.w x r) ∧
          (∀ x r c, s.w.tiles ≤ x → x < s.w.tiles + n.toNat → xget t.w x r c = 0 ∧ sideGet t.w x r = 0) ∧
          Tab.get 0 t.g.xpool slot + n.toNat = Tab.get 0 s.g.xpool slot ∧
          ∀ m, m ≠ slot → Tab.get 0 t.g.xpool m = Tab.get 0 s.g.xpool m)))) ∧
    (16 < n.toNat → ∀ i ∈ [Instr.vgive n, .vclaim n, .xgive n, .xclaim n],
      exec i s = .next (takeTrap { cause := 0x02, detail := 3 } s)) ∧
    (s.w.vblocks < n.toNat → exec (.vgive n) s = .next (takeTrap { cause := 0x02, detail := 3 } s)) ∧
    (16 < s.w.vblocks + n.toNat → exec (.vclaim n) s = .next (takeTrap { cause := 0x02, detail := 3 } s)) ∧
    (s.w.tiles < n.toNat → exec (.xgive n) s = .next (takeTrap { cause := 0x02, detail := 3 } s)) ∧
    (16 < s.w.tiles + n.toNat → exec (.xclaim n) s = .next (takeTrap { cause := 0x02, detail := 3 } s))

/-! ## Memory accesses (15 R376-R387; 10 R240-R251) -/

/-- LD, LDL, LDLINE and SLD, with every access translated: one operation issues that holds each active lane's
access, at the address of R377 and with the places of its bytes; it is a member of the produce slot when a lane is
no helper lane. ST, STL, STLINE and SST, with every access translated: one operation issues that holds the cells of
the active non-helper lanes in ascending lane order, little-endian; a store to global memory that waits for nothing
is accepted at once. Memory does not change yet. -/
def Obligations.LoadsAndStoresIssue : Prop :=
  (∀ (s : State) (d v : BitVec 7) (e m : BitVec 6) (b : BitVec 2) (st : Bool) (p k : BitVec 4) (places : Nat → List Nat),
     Claims.accessReady s k →
     let n := accessSize (ty s)
     let member := nonHelperMask s != 0
     let each (f : Nat → Nat) : List LaneAcc :=
       (lanesOf (activeMask s)).map (fun l => { lane := l, va := f l, bytes := places l })
     let answers (i : Instr) (member : Bool) (loc : Bool) (size : Nat) (dst : LoadDst) (accs : List LaneAcc) : Prop :=
       Claims.goes i s (fun t => ∃ o : Op, Claims.issues s t o p.toNat k.toNat st member 0 ∧ o.scope = scope s ∧
         o.flag = assignedFlag s ∧
         o.kind = .load loc size (size != 128 && (ty s == 6 || ty s == 9)) dst accs)
     (activeMask s ≠ 0 → Claims.typedReady s d.toNat (v.toNat :: Claims.dataAt s d) →
       (∀ l, l < 96 → lane (activeMask s) l = true →
         accessPhys s .read (Claims.globalAddr s b v l) n = .ok (places l)) →
       answers (.ld d v b st p k) member false n (.vec d.toNat) (each (fun l => Claims.globalAddr s b v l % 2 ^ 56))) ∧
     (activeMask s ≠ 0 → Claims.typedReady s d.toNat (v.toNat :: Claims.dataAt s d) →
       (∀ l, l < 96 → lane (activeMask s) l = true → Claims.localAddr s b v n l + n ≤ s.g.desc.lsize) →
       Claims.goes (.ldl d v b st p k) s (fun t => ∃ o : Op, Claims.issues s t o p.toNat k.toNat st member 0 ∧
         o.scope = scope s ∧ o.kind = .load true n (ty s == 6 || ty s == 9) (.vec d.toNat)
           ((lanesOf (activeMask s)).map (fun l => { lane := l, va := Claims.localAddr s b v n l
                                                     bytes := (List.range n).map (Claims.localAddr s b v n l + ·) })))) ∧
     (activeMask s ≠ 0 → d.toNat % 8 = 0 → d.toNat ≤ 96 → vHeld s v.toNat = true →
       (∀ r, d.toNat ≤ r → r < d.toNat + 32 → vHeld s r = true) →
       (∀ l, l < 96 → lane (activeMask s) l = true →
         accessPhys s .read (Claims.globalAddr s b v l / 128 * 128) 128 = .ok (places l)) →
       answers (.ldline d v b st p k) member false 128 (.line d.toNat)
         (each (fun l => Claims.globalAddr s b v l / 128 * 128 % 2 ^ 56))) ∧
     (let a := ((sget64 s (48 + 2 * b.toNat)).toNat + (sget s m.toNat).toNat) % 2 ^ 64;
       someNonHelper s = true → Claims.typedReady s e.toNat [] → accessPhys s .read a n = .ok (places 0) →
       answers (.sld e m b st p k) true false n (.scal e.toNat) [{ lane := 0, va := a % 2 ^ 56, bytes := places 0 }]) ∧
     (activeMask s = 0 → Claims.typedReady s d.toNat (v.toNat :: Claims.dataAt s d) →
       exec (.ld d v b st p k) s = .next (Claims.goesOn s) ∧ exec (.ldl d v b st p k) s = .next (Claims.goesOn s))) ∧
  (∀ (s : State) (d v : BitVec 7) (e m : BitVec 6) (b : BitVec 2) (st : Bool) (p k : BitVec 4) (places : Nat → List Nat),
     Claims.accessReady s k →
     let n := accessSize (ty s)
     let answers (i : Instr) (loc : Bool) (cells : List (Nat × Byte)) : Prop :=
       Claims.goes i s (fun t => ∃ o : Op, Claims.issues s t o p.toNat k.toNat st true
         (if loc = false ∧ membersOf s s.w k.toNat = [] then 1 else 0) ∧ o.scope = scope s ∧ o.kind = .store loc cells)
     let each (f : Nat → List Nat) (bs : Nat → List Byte) : List (Nat × Byte) :=
       (lanesOf (nonHelperMask s)).flatMap (fun l => (f l).zip (bs l))
     let data (l : Nat) : List Byte := Claims.littleEndian n (Claims.laneData s d.toNat l)
     let line (l : Nat) : List Byte := (List.range 32).flatMap (fun r => Claims.littleEndian 4 (vget s (d.toNat + r) l).toNat)
     (nonHelperMask s ≠ 0 → Claims.typedReady s d.toNat (v.toNat :: Claims.dataAt s d) →
       (∀ l, l < 96 → lane (nonHelperMask s) l = true →
         accessPhys s .write (Claims.globalAddr s b v l) n = .ok (places l)) →
       answers (.st d v b st p k) false (each places data)) ∧
     (nonHelperMask s ≠ 0 → Claims.typedReady s d.toNat (v.toNat :: Claims.dataAt s d) →
       (∀ l, l < 96 → lane (nonHelperMask s) l = true → Claims.localAddr s b v n l + n ≤ s.g.desc.lsize) →
       answers (.stl d v b st p k) true
         (each (fun l => (List.range n).map (Claims.localAddr s b v n l + ·)) data)) ∧
     (nonHelperMask s ≠ 0 → d.toNat % 8 = 0 → d.toNat ≤ 96 → vHeld s v.toNat = true →
       (∀ r, d.toNat ≤ r → r < d.toNat + 32 → vHeld s r = true) →
       (∀ l, l < 96 → lane (nonHelperMask s) l = true →
         accessPhys s .write (Claims.globalAddr s b v l / 128 * 128) 128 = .ok (places l)) →
       answers (.stline d v b st p k) false (each places line)) ∧
     (let a := ((sget64 s (48 + 2 * b.toNat)).toNat + (sget s m.toNat).toNat) % 2 ^ 64;
       let value := if n = 8 then (sget64 s e.toNat).toNat else (sget s e.toNat).toNat;
       someNonHelper s = true → Claims.typedReady s e.toNat [] → accessPhys s .write a n = .ok (places 0) →
       answers (.sst e m b st p k) false ((places 0).zip (Claims.littleEndian n value))) ∧
     (nonHelperMask s = 0 → Claims.typedReady s d.toNat (v.toNat :: Claims.dataAt s d) →
       exec (.st d v b st p k) s = .next (Claims.goesOn s) ∧ exec (.stl d v b st p k) s = .next (Claims.goesOn s)))

/-- The ATOM instructions, with every lane's location translated in region 0: one operation issues that holds for
each active non-helper lane its location, aligned down to the size, its x from vd and, for CAS, its c from the
registers after. LOAD_DATA_RETURN of an atomic whose sectors are good and whose lines can be served: each location takes the new value of Table
15-2, each lane's vd the old one (also the lanes that earlier events of the atomic performed, 10 R246), and nothing else changes in
memory; lanes on one location go in ascending lane order. -/
def Obligations.AtomicsIssueAndPerform : Prop :=
  (∀ (s : State) (d v : BitVec 7) (b : BitVec 2) (st : Bool) (p k : BitVec 4) (at' : Nat → Nat) (i : Instr) (op : AtomOp)
     (types : List Nat),
     (i, op, types) ∈ [(Instr.atomAdd d v b st p k, AtomOp.add, [0, 1, 2, 3]), (.atomMin d v b st p k, .min, [0, 1, 2, 3]),
       (.atomMax d v b st p k, .max, [0, 1, 2, 3]), (.atomAnd d v b st p k, .band, [0, 1, 2, 3]),
       (.atomOr d v b st p k, .bor, [0, 1, 2, 3]), (.atomXor d v b st p k, .bxor, [0, 1, 2, 3]),
       (.atomXchg d v b st p k, .xchg, [0, 1, 2, 3, 4]), (.atomCas d v b st p k, .cas, [0, 1, 2, 3, 4]),
       (.atomInc d v b st p k, .inc, [0, 1, 2, 3]), (.atomDec d v b st p k, .dec, [0, 1, 2, 3]),
       (.atomFadd d v b st p k, .fadd, [4])] →
     Claims.accessReady s k → nonHelperMask s ≠ 0 →
     let n := accessSize (ty s)
     let regs := n / 4 * (if op = .cas then 2 else 1)
     d.toNat % regs = 0 → vHeld s v.toNat = true → (∀ r, r < regs → vHeld s (d.toNat + r) = true) →
     ty s ∈ types → (op = .fadd → rnd s ≤ 4) →
     (∀ l, l < 96 → lane (nonHelperMask s) l = true →
       accessPhys s .both (Claims.globalAddr s b v l / n * n) n = .ok ((List.range n).map (at' l + ·)) ∧
       ∀ j, j < n → paRegion (at' l + j) = 0) →
     Claims.goes i s (fun t => ∃ o : Op, Claims.issues s t o p.toNat k.toNat st true 0 ∧ o.scope = scope s ∧
       o.flag = assignedFlag s ∧
       o.kind = .atomic op n (ty s == 1 || ty s == 3) (rnd s) (flush s) d.toNat ((lanesOf (nonHelperMask s)).map (fun l =>
         { lane := l, addr := at' l, x := Claims.laneData s d.toNat l
           c := if op = .cas then Claims.laneData s (d.toNat + n / 4) l else 0 })))) ∧
  (∀ (s : State) (o : Op) (op : AtomOp) (n : Nat) (sg : Bool) (rm : Nat) (fl : Bool) (d : Nat) (items : List AtomItem),
     Claims.mayPerform s o → o.kind = .atomic op n sg rm fl d items → inOrder s blocksWrite o = true → n = 4 ∨ n = 8 →
     (∀ x ∈ items, x.lane < 96 ∧ x.addr % n = 0 ∧ sectorDev s (x.addr / 32) = 0 ∧ x.x < 2 ^ (8 * n) ∧ x.c < 2 ^ (8 * n)) →
     (o.olds.map (·.1) ++ items.map (·.lane)).Nodup → (∀ q ∈ o.olds, q.1 < 96) →
     (writeFor s o (items.map (·.addr))).isSome = true →
     let new (x : AtomItem) (old : Nat) : Nat := Claims.atomValue op (8 * n) sg rm fl old x.x x.c % 2 ^ (8 * n)
     let old (t : State) (x : AtomItem) (q : Nat) : Prop :=
       vget t d x.lane = BitVec.ofNat 32 q ∧ (n = 8 → vget t (d + 1) x.lane = BitVec.ofNat 32 (q / 2 ^ 32))
     let rest (t : State) : Prop :=
       Claims.leavesFlight s t o ∧ (∀ a, (∀ x ∈ items, a < x.addr ∨ x.addr + n ≤ a) → memByte t a = memByte s a) ∧
       (∀ a, locByte t.g a = locByte s.g a) ∧
       (∀ l, l < 96 → l ∉ o.olds.map (·.1) → l ∉ items.map (·.lane) → ∀ r, vget t r l = vget s r l) ∧
       (∀ q ∈ o.olds, vget t d q.1 = BitVec.ofNat 32 q.2 ∧ (n = 8 → vget t (d + 1) q.1 = BitVec.ofNat 32 (q.2 / 2 ^ 32))) ∧
       (∀ r, r < d ∨ d + n / 4 ≤ r → vrow t r = vrow s r) ∧ t.w.sreg = s.w.sreg ∧ t.w.pred = s.w.pred ∧
       (op ≠ .fadd → t.w.astat = s.w.astat ||| o.raised)
     ((items.map (·.addr)).Nodup → Claims.goes (.loadDataReturn o.id) s (fun t => rest t ∧
       ∀ x ∈ items, memNum t x.addr n = new x (memNum s x.addr n) ∧ old t x (memNum s x.addr n))) ∧
     (∀ x y, items = [x, y] → x.addr = y.addr → Claims.goes (.loadDataReturn o.id) s (fun t => rest t ∧
       let q := memNum s x.addr n
       memNum t x.addr n = new y (new x q) ∧ old t x q ∧ old t y (new x q))))

/-- LOAD_DATA_RETURN of a load with no earlier access of the wave in its way, nor two stores of its wave in the store queue that nothing
orders, every sector good and every line served: each lane's
register takes the bytes in memory, or those that earlier events of the same load bound (10 R247), little-endian, extended as the
type says (zero for the bytes of region 2), and the operation leaves flight; other lanes, registers and memory stay. -/
def Obligations.LoadsReturnTheirData : Prop :=
  ∀ (s : State) (o : Op) (loc : Bool) (size : Nat) (signed : Bool) (dst : LoadDst) (accs : List LaneAcc),
    Claims.mayPerform s o → o.kind = .load loc size signed dst accs → inOrder s blocksLoad o = true → queueOrdered s o = true →
    let v := loadView s o
    (∀ x ∈ accs, x.lane < 96 ∧ x.bytes.length = size) →
    (∀ a ∈ Claims.unboundPlaces o accs, if loc then locDev v.g (a / 32) = 0 else paRegion a ≠ 2 → sectorDev v (a / 32) = 0) →
    (loc = false → (fillFor s o (Claims.unboundPlaces o accs)).isSome = true) →
    let bytes (x : LaneAcc) : List Byte :=
      x.bytes.map (Claims.foundByte o (fun a => if loc then locByte s.g a else if paRegion a = 2 then 0 else memByte v a))
    let word (x : LaneAcc) (i : Nat) : Word :=
      let n := numOf (bytes x)
      if size = 1 then (if signed then (BitVec.ofNat 8 n).signExtend 32 else BitVec.ofNat 32 n)
      else if size = 2 then (if signed then (BitVec.ofNat 16 n).signExtend 32 else BitVec.ofNat 32 n)
      else BitVec.ofNat 32 (numOf (((bytes x).drop (4 * i)).take 4))
    (∀ d, (dst = .vec d ∧ size ∈ [1, 2, 4, 8]) ∨ (dst = .line d ∧ size = 128) → (accs.map (·.lane)).Nodup →
      Claims.goes (.loadDataReturn o.id) s (fun t =>
        Claims.leavesFlight s t o ∧ Claims.keepsMemory s t ∧
        (∀ x ∈ accs, ∀ i, i < max 1 (size / 4) → vget t (d + i) x.lane = word x i) ∧
        (∀ l, l < 96 → l ∉ accs.map (·.lane) → ∀ n, vget t n l = vget s n l) ∧
        (∀ n, n < d ∨ d + max 1 (size / 4) ≤ n → vrow t n = vrow s n) ∧
        t.w.sreg = s.w.sreg ∧ t.w.pred = s.w.pred ∧ t.w.tile = s.w.tile ∧ t.w.side = s.w.side ∧ t.w.astat = s.w.astat)) ∧
    (∀ d x, dst = .scal d → size ∈ [1, 2, 4, 8] → accs = [x] →
      Claims.goes (.loadDataReturn o.id) s (fun t =>
        Claims.leavesFlight s t o ∧ Claims.keepsMemory s t ∧
        sget t d = Claims.regAfter s d (word x 0) ∧ (size = 8 → sget t (d + 1) = Claims.regAfter s (d + 1) (word x 1)) ∧
        (∀ n, n ≠ d → (size = 8 → n ≠ d + 1) → sget t n = sget s n) ∧
        t.w.vreg = s.w.vreg ∧ t.w.pred = s.w.pred ∧ t.w.tile = s.w.tile ∧ t.w.side = s.w.side ∧ t.w.astat = s.w.astat))

/-- MEMBER_PERFORMED of a store in order: a global store is accepted, with nothing to write complete, then written once
its lines can be served, the last cell of an address standing and every other byte of memory as before, and leaves
flight; to host memory it stays until HOST_WRITE_ACK with the active port's link up, its completion flag given back where it
is performed at its captured scope (13 R316); a local store is written, but
for the bytes of a barrier's yield list and bits [31:28] of a barrier (10 Table 10-4). -/
def Obligations.StoresPerformTheirCells : Prop :=
  ∀ (s : State) (o : Op) (cells : List (Nat × Byte)), Claims.mayPerform s o → o.late = none →
    let reaches (t : State) (n : Nat) : Prop :=
      t.ops = s.ops.map (fun p => if p.id = o.id then
        { p with done := n, accepted := p.accepted.or (some s.nextOp), flag := if o.scope < n then none else p.flag } else p) ∧
      Claims.keepsRegisters s t ∧ t.w.pc = s.w.pc ∧ t.w.status = s.w.status ∧ (∀ a, locByte t.g a = locByte s.g a) ∧
      ∀ f, Tab.get 0 t.w.flag f = Tab.get 0 s.w.flag f - if o.flag = some f ∧ o.scope < n then 1 else 0
    let kept (c : Nat × Byte) : Nat × Byte := (c.1, if s.g.tbars.any (fun b => c.1 == b + 3) then c.2 &&& 0x0F else c.2)
    (o.kind = .store false cells → o.done = 0 → cells ≠ [] →
      Claims.goes (.memberPerformed o.id) s (fun t => reaches t 1 ∧ ∀ a, memByte t a = memByte s a)) ∧
    (o.kind = .store false [] → o.done = 0 → Claims.goes (.memberPerformed o.id) s (fun t =>
      Claims.leavesFlight s t o ∧ Claims.keepsRegisters s t ∧ Claims.keepsMemory s t)) ∧
    (o.kind = .store false cells → 0 < o.done → o.done < 5 → inOrder s blocksWrite o = true →
      (∀ c ∈ cells, noroute s c.1 = none) → (writeFor s o (cells.map (·.1))).isSome = true →
      ((∀ c ∈ o.got ++ cells, paRegion c.1 = 0) → Claims.goes (.memberPerformed o.id) s (fun t =>
        Claims.leavesFlight s t o ∧ Claims.keepsRegisters s t ∧ (∀ a, memByte t a = Claims.cellAt cells a (memByte s a)) ∧
        ∀ a, locByte t.g a = locByte s.g a)) ∧
      ((∀ c ∈ cells, paRegion c.1 = 1) → cells ≠ [] → Claims.goes (.memberPerformed o.id) s (fun t =>
        reaches t 5 ∧ ∀ a, memByte t a = Claims.cellAt cells a (memByte s a)))) ∧
    (o.done = 5 → (∀ j, o.kind ≠ .copy j) → activeUp s = true → Claims.goes (.hostWriteAck o.id) s (fun t =>
      Claims.leavesFlight s t o ∧ Claims.keepsRegisters s t ∧ Claims.keepsMemory s t)) ∧
    (o.kind = .store true cells → inOrder s blocksWrite o = true → Claims.goes (.memberPerformed o.id) s (fun t =>
      Claims.leavesFlight s t o ∧ Claims.keepsRegisters s t ∧ (∀ a, memByte t a = memByte s a) ∧
      ∀ a, locByte t.g a = if protectedByte s.g a then locByte s.g a else Claims.cellAt (cells.map kept) a (locByte s.g a)))

/-- PREF is dropped while a member of its consume key is not performed (the model's choice, log 36: R385 allows a drop or a
delay), and else at most fills caches and TLBs: no register, byte, key or operation changes. ENQ and LAUNCH issue operations
that hold the chain's head and the lanes' descriptors, ENQ at the captured scope and LAUNCH at device scope, or at fabric
scope where that is captured (the model's reading, log 20). -/
def Obligations.PrefetchEnqueueAndLaunchIssue : Prop :=
  ∀ (s : State) (h v : BitVec 7) (b : BitVec 2) (p k : BitVec 4), em s ≠ 0 → vHeld s v.toNat = true →
    (h.toNat ≤ 2 → (∃ id ∈ membersOf s s.w k.toNat, performedAt s s.w (scope s) id = false) →
      exec (.pref h v b p k) s = .next (Claims.goesOn s)) ∧
    (h.toNat ≤ 2 → Claims.goes (.pref h v b p k) s (fun t =>
      t = { s with w := { s.w with pc := s.w.pc + 4 }, xlt := t.xlt, coh := t.coh, mem := { s.mem with stale := t.mem.stale } })) ∧
    (2 < h.toNat → exec (.pref h v b p k) s = .next (takeTrap { cause := 0x01, detail := 1 } s)) ∧
    (entryToTake s.w (some k.toNat) (membersOf s s.w k.toNat) = none →
      (someNonHelper s = true → scope s ≤ 5 → Claims.goes (.enq b k) s (fun t => ∃ o : Op,
        Claims.issues s t o 0 k.toNat false false 0 ∧ o.scope = scope s ∧ o.flag = none ∧
        o.kind = .enq ((sget64 s (48 + 2 * b.toNat)).toNat % 2 ^ 19 / 64 * 64) s.g.die s.g.core)) ∧
      (nonHelperMask s ≠ 0 → Claims.goes (.launch v b k) s (fun t => ∃ o : Op,
        Claims.issues s t o 0 k.toNat true true 0 ∧ o.scope = (if scope s = 5 then 5 else 4) ∧ o.flag = assignedFlag s ∧
        o.kind = .launch ((lanesOf (nonHelperMask s)).map (fun l => (l, Claims.globalAddr s b v l / 64 * 64)))))) ∧
    (nonHelperMask s = 0 → exec (.launch v b k) s = .next (Claims.goesOn s))

/-! ## The matrix engine and the state-space unit (11, 12; 16 R410-R426) -/

/-- MMA and MMAB on held tiles with a good format block: the work issues with each element of the accumulator
clamped from its exact sum of products for an integer accumulator and MMAB (R286, R298), and for a floating-point one
rounded into it after each chunk of 16 elements, whose sum of products is rounded, scaled, and rounded again (R280, R285,
R287); with flags bit 2 the side elements take the sums of the rows of A (R296). With an integer accumulator SAT is set exactly
when an element of a row that is no helper's is clamped. A streamed source issues the lines to be fetched instead, strong. Format block
and scales are read at issue as they stand, the model's reading (log 34). -/
def Obligations.MatrixProductsIssue : Prop :=
  ∀ (s : State) (x xa xb : BitVec 4) (f : BitVec 5) (b : FmtBlk), em s ≠ 0 → xHeld s x.toNat = true →
    let old (r c : Nat) : Word := xget s.w x.toNat r c
    let clamp (z : Int) : Word := BitVec.ofInt 32 (Claims.clampTo 32 true z)
    let clamped (sum : Nat → Nat → Int) : Prop := ∃ r c, lane (nonHelperMask s) r = true ∧ r < 96 ∧ c < 32 ∧
      Claims.clampTo 32 true ((old r c).toInt + sum r c) ≠ (old r c).toInt + sum r c
    let integer (i : Instr) (sum : Nat → Nat → Int) (row : Nat → Int) : Prop :=
      Claims.goes i s (fun t => ∃ fl : Word, Claims.matrixIssues s t x (fun r c => clamp ((old r c).toInt + sum r c))
        (fun r => if bit b.flags 2 then some (clamp ((sideGet s.w x.toNat r).toInt + row r)) else none) fl ∧
        (bit b.flags 2 = false → (fl = 0 ∨ fl = 0x20) ∧ (fl = 0x20 ↔ clamped sum)))
    let ones (op : Bool → Bool → Bool) (r c : Nat) : Int :=
      Claims.total b.k (fun k => if op (Claims.rowBit s xa r k) (Claims.rowBit s xb c k) then 1 else 0)
    let rowOnes (r : Nat) : Int := Claims.total b.k (fun k => if Claims.rowBit s xa r k then 1 else 0)
    (xHeld s xa.toNat = true → xHeld s xb.toNat = true →
      (Claims.blockAt s f true b →
        integer (.mmabAnd x (.tile xa) (.tile xb) f 0) (ones and) rowOnes ∧
        integer (.mmabXor x (.tile xa) (.tile xb) f 0) (fun r c => b.k - 2 * ones xor r c) rowOnes) ∧
      (Claims.blockAt s f false b → b.acc = 1 →
        integer (.mma x (.tile xa) (.tile xb) f 0)
          (fun r c => Claims.total b.k (fun k => Claims.intElem s b.afmt xa r k * Claims.intElem s b.bfmt xb c k))
          (fun r => Claims.total b.k (Claims.intElem s b.afmt xa r))) ∧
      (Claims.blockAt s f false b → b.acc ≠ 1 → rnd s ≤ 4 →
        Claims.goes (.mma x (.tile xa) (.tile xb) f 0) s (fun t => ∃ fl : Word, Claims.matrixIssues s t x
          (fun r c => Claims.mmaResult s b xa xb r c (old r c))
          (fun r => if bit b.flags 2 then some (BitVec.ofNat 32 (Claims.rowSumResult s b xa r (sideGet s.w x.toNat r).toNat)) else none)
          fl))) ∧
    (∀ (a c : XSrc) (k : BitVec 4) (i : Instr) (bin : Option Bool) (places : Nat → List Nat),
      (i, bin) ∈ [(Instr.mma x a c f k, none), (.mmabAnd x a c f k, some false), (.mmabXor x a c f k, some true)] →
      a.assigned = true → c.assigned = true → (a.streamed || c.streamed) = true → mmaHeld s x a c = true →
      Claims.accessReady s k → activeMask s ≠ 0 → Claims.blockAt s f bin.isSome b → (b.acc = 1 ∨ rnd s ≤ 4) →
      let linesA := Claims.streamed s a f ((lanesOf (activeMask s)).map (fun r => (r, r))) places
      let linesB := Claims.streamed s c f ((List.range 32).map (fun q => (96 + q, q))) places
      (∀ y ∈ mmaLines s a c f b, y.2.2 = .ok (places y.1)) →
      Claims.goes i s (fun t => ∃ (o : Op) (j : StreamJob), o.kind = .stream j ∧ o.scope = scope s ∧ o.flag = assignedFlag s ∧
        Claims.issues s t o k.toNat k.toNat true (nonHelperMask s != 0) 0 ∧ j.todo = linesA ++ linesB ∧ j.got = [] ∧
        j.held = [] ∧ j.bad = [] ∧ j.die = s.g.die ∧ j.job = mmaJob s bin x a c b))

/-- MATRIX_BEAT_WRITE, once the share has done what was issued to it earlier, writes the rows of the next beat, and
with the last sets the flags of the work and ends it; TILE_FETCH_ARRIVAL takes one line of a streamed source from
memory, once it can be pinned on the die, and with the last binds the work: the beats and flags of the product of the lines
fetched (R294). A bound instruction is no member of its key any more (the model's reading, log 34). -/
def Obligations.MatrixWorkIsWrittenBack : Prop :=
  ∀ (s : State) (o : Op), Claims.mayPerform s o →
    (∀ (x n : Nat) (b : Beat) (rest : List (Nat × Beat)) (f : Word), o.kind = .matrix x ((n, b) :: rest) f → shareFree s o = true →
      Claims.goes (.matrixBeatWrite o.id) s (fun t =>
        (∀ r c, c < 32 → xget t.w x r c = Claims.cellAt b.words (32 * r + c) (xget s.w x r c)) ∧
        (∀ r, sideGet t.w x r = Claims.cellAt b.sides r (sideGet s.w x r)) ∧ Claims.onlyTile s t x ∧ Claims.keepsMemory s t ∧
        t.w.pc = s.w.pc ∧ t.w.status = s.w.status ∧
        (rest ≠ [] → t.w.astat = s.w.astat ∧
          t.ops = s.ops.map (fun p => if p.id = o.id then { p with kind := .matrix x rest f } else p)) ∧
        (rest = [] → t.w.astat = s.w.astat ||| f ∧ Claims.leavesFlight s t o))) ∧
    (∀ (j : StreamJob) (x : StreamLine) (rest : List StreamLine), o.kind = .stream j → j.todo = x :: rest → j.bad = [] →
      lineReady s o j x = true → (pinLines o j x.places s).isSome = true →
      (∀ a ∈ x.places, paRegion a ≠ 2 → sectorDev (loadView s o) (a / 32) = 0) →
      Claims.goes (.tileFetchArrival o.id) s (fun t =>
        Claims.keepsRegisters s t ∧ Claims.keepsMemory s t ∧ t.w.pc = s.w.pc ∧ t.w.status = s.w.status ∧
        let v := numOf (x.places.map (fun a => if paRegion a = 2 then 0 else memByte (loadView s o) a))
        (rest ≠ [] → ∃ k : StreamJob, t.ops = s.ops.map (fun p => if p.id = o.id then { p with kind := .stream k } else p) ∧
          k = { j with todo := rest, got := k.got, held := k.held } ∧
          ∀ y, Tab.get 0 k.got y = if y = x.key then v else Tab.get 0 j.got y) ∧
        (rest = [] → ∃ got : Tab Nat, (∀ y, Tab.get 0 got y = if y = x.key then v else Tab.get 0 j.got y) ∧
          let work := mmaBeats s.w j.job (rowsA s.w j.job got) (rowsB s.w j.job got)
          t.ops = s.ops.map (fun p => if p.id = o.id then
            { p with kind := .matrix j.job.x work.1 work.2, tag := none, waits := [], done := 6 } else p))))

/-- XZERO clears the rows and side elements of active and helper lanes at once. XSCALE scales each element of any accumulator
format, less zero point times row sum where the block asks for it (R297); XCVT writes one run of converted
elements and keeps the row's other words; both issue matrix work. XMOVR and XMOVC move between a vector register and
three consecutive rows, or one column, or the side elements: the active and helper lanes take their words, or give
them; every other word stays. XSCALE reads its block and scales at issue as they stand, the model's
reading (log 34). -/
def Obligations.TileArithmeticAndMoves : Prop :=
  (∀ (s : State) (x a : BitVec 4) (f : BitVec 5) (im : Bool) (q : BitVec 3) (fmt : BitVec 4), em s ≠ 0 → xHeld s x.toNat = true →
     Claims.goes (.xzero x) s (fun t =>
       t = { s with w := { s.w with tile := t.w.tile, side := t.w.side, pc := s.w.pc + 4 } } ∧ Claims.onlyTile s t x.toNat ∧
       ∀ r, r < 96 → sideGet t.w x.toNat r = (if lane (activeMask s) r then 0 else sideGet s.w x.toNat r) ∧
         ∀ c, c < 32 → xget t.w x.toNat r c = if lane (activeMask s) r then 0 else xget s.w x.toNat r c) ∧
     (∀ b : FmtBlk, b = blockOf (Claims.localSeen s (Claims.pairLocal s f) 64) →
       (Claims.localSeen s (Claims.pairLocal s f) 64)[2]?.any (fun y => decide (y.toNat < 4)) = true →
       b.flags < 8 → Claims.pairLocal s f % 64 = 0 → b.cscale % 4 = 0 → b.czp % 4 = 0 →
       Claims.pairLocal s f + 64 ≤ s.g.desc.lsize → b.cscale + 128 ≤ s.g.desc.lsize → b.czp + 128 ≤ s.g.desc.lsize →
       Claims.goes (.xscale x f) s (fun t => ∃ (fl : Word) (word : Nat → Nat → Word),
         Claims.matrixIssues s t x word (fun _ => none) fl ∧
         let num (base c : Nat) : Nat := numOf (Claims.localSeen s (base + 4 * c) 4)
         ∀ r c, r < 96 → c < 32 → word r c = BitVec.ofNat 32 (Claims.scaledResult b (xget s.w x.toNat r c) (sideGet s.w x.toNat r)
           (BitVec.ofNat 32 (num b.cscale c)) (BitVec.ofNat 32 (num b.czp c))))) ∧
     (xcvtOk fmt q = true → xHeld s a.toNat = true → rnd s ≤ 4 →
       Claims.goes (.xcvt x a im q fmt) s (fun t => ∃ (fl : Word) (word : Nat → Nat → Word),
         Claims.matrixIssues s t x word (fun _ => none) fl ∧
         let dst := [0x9, 0x8, 0xC, 0xD, 0xE, 0xA, 0xB, 0xF, 0xF].getD fmt.toNat 0
         let w := [8, 8, 8, 8, 8, 16, 16, 4, 4].getD fmt.toNat 0
         ∀ r, r < 96 →
           (∀ i, i < 32 → (word r (w * q.toNat + w * i / 32)).extractLsb' (w * i % 32) w =
             BitVec.ofNat w (Sys2Proof.Num.convert (rnd s) (sat s) (flush s) (if im then 0x1 else 0x4) dst (xget s.w a.toNat r i).toNat).1) ∧
           ∀ c, c < 32 → c < w * q.toNat ∨ w * q.toNat + w ≤ c → word r c = xget s.w x.toNat r c))) ∧
  (∀ (s : State) (v : BitVec 7) (x : BitVec 4) (imm : BitVec 2) (n : BitVec 6), em s ≠ 0 → vHeld s v.toNat = true →
     xHeld s x.toNat = true →
     let i := ((sget s n.toNat).toNat + imm.toNat) % 2 ^ 32
     let row (l : Nat) : Nat := (i + l / 32) % 96
     let gives (j : Instr) (cell : Nat → Nat × Nat) : Prop := Claims.goes j s (fun t =>
       t = { s with w := { s.w with tile := t.w.tile, pc := s.w.pc + 4 } } ∧ Claims.onlyTile s t x.toNat ∧
       (∀ l, l < 96 → lane (activeMask s) l = true → xget t.w x.toNat (cell l).1 (cell l).2 = vget s v.toNat l) ∧
       ∀ r c, c < 32 → (∀ l, l < 96 → lane (activeMask s) l = true → cell l ≠ (r, c)) →
         xget t.w x.toNat r c = xget s.w x.toNat r c)
     Claims.laneGives s (.xmovr v false x imm n) v (fun l => xget s.w x.toNat (row l) (l % 32)) 0 ∧
     Claims.laneGives s (.xmovc v false false x imm n) v (fun l => xget s.w x.toNat l (i % 32)) 0 ∧
     Claims.laneGives s (.xmovc v false true x 0 0) v (fun l => sideGet s.w x.toNat l) 0 ∧
     gives (.xmovr v true x imm n) (fun l => (row l, l % 32)) ∧
     gives (.xmovc v true false x imm n) (fun l => (l, i % 32)) ∧
     Claims.goes (.xmovc v true true x 0 0) s (fun t =>
       t = { s with w := { s.w with side := t.w.side, pc := s.w.pc + 4 } } ∧ Claims.onlyTile s t x.toNat ∧
       ∀ r, r < 96 → sideGet t.w x.toNat r = if lane (activeMask s) r then vget s v.toNat r else sideGet s.w x.toNat r))

/-- TLD and TST issue one strong access to each row, 128 bytes from its own address on, and with .side 4 bytes of
its side element beyond the rows; both count in their completion flag, TST until its bytes are performed at the captured scope
(13 Table 13-2); the data of TLD, when it returns, become the rows. -/
def Obligations.TileTransfers : Prop :=
  ∀ (s : State) (x : BitVec 4) (side loc : Bool) (f : BitVec 5) (k : BitVec 4) (places : Nat → List Nat),
    Claims.accessReady s k → xHeld s x.toNat = true →
    let base := (if loc then Claims.pairLocal s f else (sget64 s (2 * f.toNat)).toNat) / 128 * 128
    let addr (d : Nat) : Nat := if loc then base + d else (base + d) % 2 ^ 64
    let accs (r : Nat) : List (Nat × Nat × Nat) :=
      (r, addr (128 * r), 128) :: if side then [(96 + r, addr (12288 + 4 * r), 4)] else []
    let reach (need : Need) (m : LaneMask) : Prop := ∀ r, r < 96 → lane m r = true → ∀ y ∈ accs r,
      if loc then y.2.1 + y.2.2 ≤ s.g.desc.lsize ∧ places y.1 = (List.range y.2.2).map (y.2.1 + ·)
      else accessPhys s need y.2.1 y.2.2 = .ok (places y.1)
    (activeMask s ≠ 0 → reach .read (activeMask s) → Claims.goes (.tld x side loc f k) s (fun t => ∃ o : Op,
      Claims.issues s t o k.toNat k.toNat true (nonHelperMask s != 0) 0 ∧ o.scope = scope s ∧ o.flag = assignedFlag s ∧
      o.kind = .load loc 128 false (.tile x.toNat) ((lanesOf (activeMask s)).flatMap (fun r => (accs r).map (fun y =>
        { lane := y.1, va := y.2.1 % 2 ^ 56, bytes := places y.1 }))))) ∧
    (nonHelperMask s ≠ 0 → reach .write (nonHelperMask s) → Claims.goes (.tst x side loc f k) s (fun t => ∃ o : Op,
      Claims.issues s t o k.toNat k.toNat true true (if loc = false ∧ membersOf s s.w k.toNat = [] then 1 else 0) ∧
      o.scope = scope s ∧ o.flag = (if loc = false ∧ membersOf s s.w k.toNat = [] ∧ scope s = 0 then none else assignedFlag s) ∧
      o.kind = .store loc ((lanesOf (nonHelperMask s)).flatMap (fun r => (accs r).flatMap (fun y => (places y.1).zip
        (if y.1 < 96 then (List.range 32).flatMap (fun c => Claims.littleEndian 4 (xget s.w x.toNat r c).toNat)
         else Claims.littleEndian 4 (sideGet s.w x.toNat r).toNat)))))) ∧
    (activeMask s = 0 → exec (.tld x side loc f k) s = .next (Claims.goesOn s) ∧
      exec (.tst x side loc f k) s = .next (Claims.goesOn s)) ∧
    (∀ (o : Op) (rows : List LaneAcc), Claims.mayPerform s o → inOrder s blocksLoad o = true → queueOrdered s o = true →
      o.kind = .load loc 128 false (.tile x.toNat) rows → (rows.map (·.lane)).Nodup →
      let v := loadView s o
      (∀ y ∈ rows, y.lane < 192 ∧ y.bytes.length = (if y.lane < 96 then 128 else 4)) →
      (∀ a ∈ Claims.unboundPlaces o rows, if loc then locDev v.g (a / 32) = 0 else paRegion a ≠ 2 → sectorDev v (a / 32) = 0) →
      (loc = false → (fillFor s o (Claims.unboundPlaces o rows)).isSome = true) →
      let bytes (y : LaneAcc) : List Byte :=
        y.bytes.map (Claims.foundByte o (fun a => if loc then locByte s.g a else if paRegion a = 2 then 0 else memByte v a))
      Claims.goes (.loadDataReturn o.id) s (fun t => Claims.leavesFlight s t o ∧ Claims.keepsMemory s t ∧
        Claims.onlyTile s t x.toNat ∧
        (∀ y ∈ rows, y.lane < 96 → ∀ c, c < 32 →
          xget t.w x.toNat y.lane c = BitVec.ofNat 32 (numOf (((bytes y).drop (4 * c)).take 4))) ∧
        (∀ y ∈ rows, 96 ≤ y.lane → sideGet t.w x.toNat (y.lane - 96) = BitVec.ofNat 32 (numOf (bytes y))) ∧
        ∀ r, r < 96 →
          (r ∉ rows.map (·.lane) → ∀ c, c < 32 → xget t.w x.toNat r c = xget s.w x.toNat r c) ∧
          (96 + r ∉ rows.map (·.lane) → sideGet t.w x.toNat r = sideGet s.w x.toNat r)))

/-- SSCAN, SSLD and SSST with a good descriptor and every address translated issue strong, SSCAN in the chunked form
when it is forced or, in the automatic one, for 16 steps or more; each operand and output lies where the descriptor says
(R302). STATE_SPACE_COMPLETE, once the unit is free and the lines can be served, reads the operands and computes the outputs:
y and the state that SSCAN gives (R304-R306), and for SSLD and SSST the state that they move (R308), in the declared formats;
then the outputs are performed. That reading and performing are two events is the model's reading (log 35). -/
def Obligations.StateSpaceRuns : Prop :=
  ∀ (s : State) (f : BitVec 5) (k : BitVec 4) (j : SteepJob),
    let bs := Claims.localSeen s (Claims.pairLocal s f) 128
    let ready (scan : Bool) : Prop := Claims.accessReady s k ∧ activeMask s ≠ 0 ∧ Claims.pairLocal s f % 128 = 0 ∧
      Claims.pairLocal s f + 128 ≤ s.g.desc.lsize ∧ steepDefect scan bs = none ∧
      (scan = false ∨ field bs 0 0 % 4 = 1 ∨ field bs 0 0 / 4 % 4 = 1 →
        field bs 15 12 + 4 * field bs 5 4 * field bs 7 6 ≤ s.g.desc.lsize)
    let answers (i : Instr) : Prop := Claims.goes i s (fun t => ∃ o : Op,
      Claims.issues s t o k.toNat k.toNat true (nonHelperMask s != 0) 0 ∧ o.scope = scope s ∧ o.flag = assignedFlag s ∧
      o.kind = .steep j)
    let width (n : Nat) : Nat := if bit (field bs 0 0) n then 2 else 4
    let rows (need : Need) (xs : List (List Span)) (base stride count len : Nat) : Prop :=
      xs.length = count ∧ ∀ i, i < count → ∃ x, xs[i]? = some [x] ∧ Claims.spanOf s need (base + i * stride) len x
    let state (need : Need) (xs : List Span) : Prop :=
      rows need (xs.map (fun x => [x])) (field bs 23 16) (j.p * width 4) j.n (j.p * width 4)
    let sizes : Prop := j.n = field bs 5 4 ∧ j.p = field bs 7 6 ∧ j.gbf = bit (field bs 0 0) 4 ∧ j.lstate = field bs 15 12
    (ready true → steepForm s ≤ 2 → scanJob s bs = .ok j → answers (.sscan f k) ∧ sizes ∧
      j.which = 0 ∧ j.len = field bs 3 2 ∧ j.d.toNat = field bs 11 8 ∧ j.xbf = bit (field bs 0 0) 5 ∧ j.ybf = bit (field bs 0 0) 6 ∧
      (j.chunked = true ↔ steepForm s = 1 ∨ (steepForm s = 0 ∧ 16 ≤ j.len)) ∧
      rows .read [j.a] (field bs 55 48) 0 1 (4 * j.len) ∧
      rows .read j.x (field bs 31 24) (field bs 67 64) j.len (j.p * width 5) ∧
      rows .read j.b (field bs 39 32) (field bs 71 68) j.len (j.n * width 5) ∧
      rows .read j.c (field bs 47 40) (field bs 75 72) j.len (j.n * width 5) ∧
      rows .write j.y (field bs 63 56) (field bs 79 76) j.len (j.p * width 6) ∧
      (j.localIn = true ↔ field bs 0 0 % 4 = 1) ∧ (j.localOut = true ↔ field bs 0 0 / 4 % 4 = 1) ∧
      (if field bs 0 0 % 4 = 2 then state .read j.hIn else j.hIn = []) ∧
      (if field bs 0 0 / 4 % 4 = 2 then state .write j.hOut else j.hOut = [])) ∧
    (ready false → moveJob s false bs = .ok j → answers (.ssld f k) ∧ sizes ∧ j.which = 1 ∧ j.localIn = false ∧
      j.localOut = true ∧ j.hOut = [] ∧ j.y = [] ∧ state .read j.hIn) ∧
    (ready false → moveJob s true bs = .ok j → answers (.ssst f k) ∧ sizes ∧ j.which = 2 ∧ j.localIn = true ∧
      j.localOut = false ∧ j.hIn = [] ∧ j.y = [] ∧ state .write j.hOut) ∧
    (∀ o : Op, Claims.mayPerform s o →
      let as := unread o (spanPlaces (steepReads j))
      let v := steepView s o
      let placesOf (xs : List Span) : List Nat := xs.flatMap (·.places)
      let offsets := (List.range (4 * j.n * j.p)).map (j.lstate + ·)
      let out := scanResult v j
      (o.kind = .steep j → inOrder s blocksLoad o = true → queueOrdered s (readPart o as) = true →
        localFree s o j.lstate (if j.localIn || j.localOut then 4 * j.n * j.p else 0) = true →
        unitFree s o = true → steepPoison v o j = none → (steepFill o as s).isSome = true →
        Claims.goes (.stateSpaceComplete o.id) s (fun t => ∃ (glob loc : List (Nat × Byte)) (fl : Word),
          t = { s with coh := t.coh, mem := { s.mem with stale := t.mem.stale }
                       ops := s.ops.map (fun p => if p.id = o.id then { p with kind := .stateOut glob loc fl, got := [] } else p) } ∧
          (j.which = 0 →
            glob = (placesOf j.y.flatten).zip (storeElems j.ybf out.1).1 ++ (placesOf j.hOut).zip (storeElems j.gbf out.2.1).1 ∧
            loc = (if j.localOut then offsets.zip (storeElems false out.2.1).1 else []) ∧
            fl = out.2.2 ||| (storeElems j.ybf out.1).2 ||| (if j.hOut = [] then 0 else (storeElems j.gbf out.2.1).2)) ∧
          (j.which = 1 → j.localIn = false → j.localOut = true → j.y = [] → j.hOut = [] → j.hIn ≠ [] → glob = [] ∧ fl = 0 ∧
            loc = offsets.zip (storeElems false (f32Elems j.gbf ((placesOf j.hIn).map (loadByte v)))).1 ∧
            (j.gbf = false → (placesOf j.hIn).length = 4 * j.n * j.p → loc = offsets.zip ((placesOf j.hIn).map (loadByte v)))) ∧
          (j.which = 2 → j.localIn = true → j.localOut = false → j.y = [] → loc = [] ∧
            glob = (placesOf j.hOut).zip (storeElems j.gbf (f32Elems false (offsets.map (locByte v.g)))).1 ∧
            fl = (if j.hOut = [] then 0 else (storeElems j.gbf (f32Elems false (offsets.map (locByte v.g)))).2) ∧
            (j.gbf = false → glob = (placesOf j.hOut).zip (offsets.map (locByte v.g)))))) ∧
      (∀ (glob loc : List (Nat × Byte)) (fl : Word), o.kind = .stateOut glob loc fl → o.done = 0 →
        steepFree s o glob = true → (writeFor s o (glob.map (·.1))).isSome = true → (∀ c ∈ glob, paRegion c.1 ≠ 2) →
        let kept (c : Nat × Byte) : Nat × Byte := (c.1, if s.g.tbars.any (fun b => c.1 == b + 3) then c.2 &&& 0x0F else c.2)
        Claims.goes (.stateSpaceComplete o.id) s (fun t =>
          ((∀ c ∈ o.got ++ glob, paRegion c.1 ≠ 1) → Claims.leavesFlight s t o) ∧
          ((∃ c ∈ o.got ++ glob, paRegion c.1 = 1) → t.ops = s.ops.map (fun p => if p.id = o.id then
            { p with done := 5, accepted := p.accepted.or (some s.nextOp), flag := if o.scope < 5 then none else p.flag } else p)) ∧
          t.w.pc = s.w.pc ∧ t.w.status = s.w.status ∧ t.w.astat = s.w.astat ||| fl ∧
          t.w.vreg = s.w.vreg ∧ t.w.sreg = s.w.sreg ∧ t.w.tile = s.w.tile ∧
          (∀ a, memByte t a = Claims.cellAt glob a (memByte s a)) ∧
          ∀ a, locByte t.g a = if protectedByte s.g a then locByte s.g a else Claims.cellAt (loc.map kept) a (locByte s.g a))))

/-! ## Events: the package, the host link, contexts and queues (01, 02, 03) -/

/-- Power and a package reset keep Trailhead's store (image and records), its monotonic counters and its measurement log (01 Table 1-6),
and put the rest of the machine at its reset values at once (the model's choice, log 39); the module goes on with the image or enters
recovery;
dies are released in the order of 01 Table 1-4, each after its own measurement, and show in the ready map under the
virtual numbers bound to them; throttling, limits and coolant act on their own bits; an uncorrectable error poisons
its sector in place. The loss of a released compute die with no wave resident, nothing in flight and no record: its ready bits
clear, its physical die is fenced and no longer released, nothing of it is left in cache or TLB, and every line of
this module's region 0 that it held in X is poisoned. An overtemperature is handled as that loss and logged; an
orderly restart of a die without groups or stores on their way measures it again and ends with it ready. -/
def Obligations.PackageAndDieEvents : Prop :=
  (∀ (s : State) (n c : Nat) (kind : DieKind),
     let wiped (t : State) : Prop :=
       t.w = {} ∧ t.g = {} ∧ t.groups = [] ∧ t.records = [] ∧ t.mem = {} ∧ t.ops = [] ∧ t.chains = [] ∧ t.ctxs = [] ∧
       t.queues = [] ∧ t.grids = [] ∧ t.xlt = {} ∧ t.coh = {} ∧ t.svc = {} ∧ t.fab = {} ∧ t.time = 0 ∧ t.pkg.relC = 0 ∧
       t.pkg.relM = 0 ∧ t.pkg.relIo = 0 ∧ t.pkg.store.image = s.pkg.store.image ∧ t.pkg.store.records = s.pkg.store.records ∧
       s.pkg.store.imgCounter ≤ t.pkg.store.imgCounter ∧
       (∀ k, Tab.get 0 s.pkg.store.recCounters k ≤ Tab.get 0 t.pkg.store.recCounters k) ∧
       ∃ xs, t.pkg.store.mlog = s.pkg.store.mlog ++ xs
     let booted (t : State) : Prop := t.pkg.power = true ∧ (t.pkg.ready.config = true ↔ t.pkg.rcv.state = 0) ∧
       (s.pkg.store.image = none → t.pkg.rcv.state = 1 ∧ t.pkg.rcv.reason = 3)
     let p := s.pkg
     let only (t : State) : Prop := t = { s with pkg := t.pkg, host := t.host }
     let measured (t : State) (k : DieKind) : Prop := ∃ d, t.pkg.store = { p.store with mlog := p.store.mlog ++ [.firmware k n d] }
     Claims.goes .packageReset s (fun t => wiped t ∧ booted t) ∧
     (p.power = false → Claims.goes .powerOn s (fun t => wiped t ∧ booted t)) ∧
     Claims.goes .powerRemoval s (fun t => wiped t ∧ t.pkg.power = false ∧ t.pkg.store = p.store) ∧
     (p.ready.config = false → exec (.dieRelease kind n) s = .next s) ∧
     (p.ready.config = true →
       (n < 2 → p.cfg.iofence.getLsbD n = false → p.relIo.getLsbD n = false →
         n = s.host.active ∨ p.relIo.getLsbD s.host.active = true → Claims.goes (.dieRelease .io n) s (fun t =>
           only t ∧ measured t .io ∧ t.pkg.relIo = p.relIo ||| BitVec.twoPow 2 n ∧
           ∀ v, v < 2 → p.cfg.iodie[v]? = some n → (.reduce, n) ∉ p.late → t.pkg.ready.reduce.getLsbD v = true)) ∧
       (n < 16 → p.cfg.mfence.getLsbD n = false → p.relM.getLsbD n = false →
         (∀ i, i < 2 → p.relIo.getLsbD i = true ∨ p.cfg.iofence.getLsbD i = true) → Claims.goes (.dieRelease .memory n) s (fun t =>
           only t ∧ measured t .memory ∧ t.pkg.relM = p.relM ||| BitVec.twoPow 16 n ∧ t.pkg.keysMade = p.keysMade + 1 ∧
           ∀ v, v < 16 → p.cfg.mdie[v]? = some n → s.svc.offline.getLsbD v = false →
             ((.base, n) ∉ p.late → t.pkg.ready.mbase.getLsbD v = true) ∧
             ((.mcache, n) ∉ p.late → t.pkg.ready.mcache.getLsbD v = true))) ∧
       (n < 32 → p.cfg.cfence.getLsbD n = false → p.relC.getLsbD n = false →
         (∀ m, m < 16 → p.relM.getLsbD m = true ∨ p.cfg.mfence.getLsbD m = true) → Claims.goes (.dieRelease .compute n) s (fun t =>
           only t ∧ measured t .compute ∧ t.pkg.relC = p.relC ||| BitVec.twoPow 32 n ∧
           ∀ v, v < 32 → p.cfg.cdie[v]? = some n → ((.cores, n) ∉ p.late → t.pkg.ready.cdie.getLsbD v = true) ∧
             ((.dispatch, n) ∉ p.late → t.pkg.ready.disp.getLsbD v = true)))) ∧
     (n < 16 → c < 16 → p.relM.getLsbD n = true → p.cfg.mfence.getLsbD n = false → p.cfg.chfence.getLsbD (16 * n + c) = false →
       Claims.goes (.channelTrainComplete n c) s (fun t => only t ∧
         ∀ v, v < 16 → p.cfg.mdie[v]? = some n → s.svc.offline.getLsbD v = false → t.pkg.ready.chan.getLsbD (16 * v + c) = true)) ∧
     exec (.thermalThrottle .compute n) s = .next { s with pkg := { p with gatedC := p.gatedC ||| BitVec.twoPow 32 n } } ∧
     exec (.thermalThrottle .memory n) s = .next { s with pkg := { p with gatedM := p.gatedM ||| BitVec.twoPow 16 n } } ∧
     exec (.thermalRelease .compute n) s = .next { s with pkg := { p with gatedC := p.gatedC &&& ~~~(BitVec.twoPow 32 n) } } ∧
     exec (.thermalRelease .memory n) s = .next { s with pkg := { p with gatedM := p.gatedM &&& ~~~(BitVec.twoPow 16 n) } } ∧
     exec (.thermalThrottle .io n) s = .next { s with pkg := { p with gatedIo := p.gatedIo ||| BitVec.twoPow 2 n } } ∧
     exec (.thermalRelease .io n) s = .next { s with pkg := { p with gatedIo := p.gatedIo &&& ~~~(BitVec.twoPow 2 n) } } ∧
     exec (.memdieOvertemp .memory n) s = .next { s with
       pkg := { p with minBwM := p.minBwM ||| BitVec.twoPow 16 n }
       host := { s.host with log := s.host.log ++ [.overtemp .memory n] } } ∧
     exec .coolantFault s = .next { s with pkg := { p with coolantFault := true } } ∧
     exec .coolantRestored s = .next { s with pkg := { p with coolantFault := false } } ∧
     (paRegion (32 * n) ≠ 1 → Claims.goes (.eccUncorrectable n) s (fun t =>
       t = { s with mem := { s.mem with dev := t.mem.dev }, host := t.host } ∧
       t.host = { s.host with log := s.host.log ++ [.ecc n] } ∧ sectorDev t n = 0xFFFF ∧
       ∀ m, m ≠ n → sectorDev t m = sectorDev s m))) ∧
  (∀ (s : State) (d f : Nat), d < 32 → s.pkg.cfg.cdie[d]? = some f → f < 32 →
     s.pkg.cfg.cfence.getLsbD f = false → s.pkg.fencedC.getLsbD f = false → s.w.status = .idle → s.groups = [] → s.records = [] →
     (s.ops = [] → s.pkg.relC.getLsbD f = true →
       let lost (t : State) : Prop :=
         t.pkg.ready.cdie.getLsbD d = false ∧ t.pkg.ready.disp.getLsbD d = false ∧
         t.pkg.relC.getLsbD f = false ∧ t.pkg.fencedC.getLsbD f = true ∧
         (∀ x ∈ t.coh.l1, x.die ≠ d) ∧ (∀ x ∈ t.coh.l2, x.die ≠ d) ∧ Tab.get [] t.xlt.die d = [] ∧
         ∀ l, paModule (128 * l) = s.fab.module → paRegion (128 * l) = 0 → (homeGet s l).hstate = .x →
           (homeGet s l).owner = some d → ∀ i, i < 4 → sectorDev t (4 * l + i) = 0xFFFF
       Claims.goes (.computeDieLoss d) s lost ∧
       Claims.goes (.computeDieOvertemp d) s (fun t => lost t ∧ t.host.log.getLast? = some (.overtemp .compute d))) ∧
     ((∀ o ∈ s.ops, o.die ≠ d) → s.pkg.ready.cdie.getLsbD d = true → (.cores, f) ∉ s.pkg.late → Claims.goes (.computeDieRestart d) s (fun t =>
       t.pkg.ready.cdie.getLsbD d = true ∧ t.pkg.restartC.getLsbD d = false ∧ (∀ x ∈ t.coh.l2, x.die ≠ d) ∧
       (∃ h, t.pkg.store = { s.pkg.store with mlog := s.pkg.store.mlog ++ [.firmware .compute f h] }) ∧
       Tab.get [] t.xlt.die d = [] ∧ ∀ a, memByte t a = memByte s a)))

/-- Recovery verifies the staged image and accepts or counts it (01 Table 1-5; where several reasons hold, in the
order of log 42); a commit stores it while no compute die has been released; SPDM answers by the active port as 01 R23
says, and with retry status before its I/O die is released. What an image's header says, the certificate and the
answers' free bytes are values of Config (log 8). -/
def Obligations.RecoveryAndAttestation : Prop :=
  ∀ (s : State) (v : Nat) (nonce data : List Byte),
    let p := s.pkg
    let r := p.rcv
    let answers (i : Instr) (x : Resp) : Prop := exec i s = .next { s with host := { s.host with resp := s.host.resp ++ [x] } }
    let setRcv (x : Recovery) : State := { s with pkg := { p with rcv := x } }
    (r.state ≠ 0 → p.relIo.getLsbD s.host.active = false → p.ready.config = false → r.port = 0 → s.host.trained.getLsbD 0 = false →
      exec .recoveryPortTimeout s = .next { s with pkg := { p with rcv := { r with port := 1 } }, host := { s.host with active := 1 } }) ∧
    (r.state = 1 ∨ r.state = 4 → r.attempts < 3 → exec .recoveryGo s = .next (setRcv { r with state := 2, verifying := true })) ∧
    (r.state = 2 →
      let bs := (List.range r.size.toNat).map (fun i => Tab.get 0 r.staging i)
      let i : Image := { version := Config.imageVersion bs, bytes := bs, sig := Config.imageSignature bs }
      let logged (xs : List LogItem) : Store := { p.store with mlog := p.store.mlog ++ .digest (sha512 bs) :: xs }
      let refused (n : Nat) (xs : List LogItem) : Prop := exec .recoveryVerifyDone s = .next { s with pkg := { p with
        store := logged xs, rcv := { r with state := 4, verifying := false, attempts := r.attempts + 1, reason := n } } }
      let same : Prop := r.size.toNat ≤ 2 ^ 26 ∧ sha512 bs = Config.imageDigest bs
      (2 ^ 26 < r.size.toNat → refused 5 []) ∧
      (r.size.toNat ≤ 2 ^ 26 → sha512 bs ≠ Config.imageDigest bs → refused 1 []) ∧
      (same → signatureOk i.bytes i.sig = false → refused 2 []) ∧
      (same → signatureOk i.bytes i.sig = true → i.version < p.store.imgCounter → refused 4 [.rejected 0 i.version 4]) ∧
      (same → signatureOk i.bytes i.sig = true → p.store.imgCounter ≤ i.version →
        Claims.goes .recoveryVerifyDone s (fun t => t = { s with pkg := t.pkg, host := t.host } ∧
          t.pkg.rcv = { r with state := 3, verifying := false, accepted := some i } ∧ t.pkg.ready.config = true ∧
          t.pkg.store = logged []))) ∧
    (∀ i, r.state = 3 → p.firstC = false → r.accepted = some i → exec .recoveryCommit s = .next { s with pkg := { p with
      store := { p.store with image := some i, imgCounter := max p.store.imgCounter i.version } } }) ∧
    (r.state ≠ 3 ∨ p.firstC = true → exec .recoveryCommit s = .next s) ∧
    (s.host.trained.getLsbD s.host.active = true → p.relIo.getLsbD s.host.active = false → answers .getVersion .crs ∧
      answers .getCapabilities .crs ∧ answers .getDigests .crs ∧ answers .getCertificate .crs ∧ answers (.getMeasurements v) .crs ∧
      answers (.negotiateAlgorithms v) .crs ∧ answers (.challenge nonce) .crs ∧ answers (.keyExchange data) .crs) ∧
    (s.host.trained.getLsbD s.host.active = true → p.relIo.getLsbD s.host.active = true →
      answers .getVersion (.spdmVersions [0x12, 0x13]) ∧ answers .getCapabilities (.spdmCapabilities (List.range 8)) ∧
      answers .getDigests (.spdmDigest (sha512 Config.spdmCertificate)) ∧
      answers .getCertificate (.spdmBytes Config.spdmCertificate) ∧
      (v = 0x12 ∨ v = 0x13 → exec (.negotiateAlgorithms v) s = .next { s with
        host := { s.host with resp := s.host.resp ++ [.spdmAlgorithms 512 4096] }
        pkg := { p with spdm := { p.spdm with version := some v, algorithms := true } } }) ∧
      answers (.getMeasurements 8) (.measurement 8 (sha512 (p.store.mlog.flatMap LogItem.bytes))) ∧
      (∀ i, r.accepted = none → p.store.image = some i →
        answers (.getMeasurements 1) (.measurement 1 (sha512 i.bytes))) ∧
      Claims.goes (.challenge nonce) s (fun t => ∃ bs, t = { s with host := t.host, fresh := s.fresh + 1 } ∧
        t.host = { s.host with resp := s.host.resp ++ [.spdmBytes bs] }) ∧
      Claims.goes (.keyExchange data) s (fun t => ∃ bs, t = { s with
          pkg := { p with spdm := { p.spdm with sessions := p.spdm.sessions + 1 } }, host := t.host, fresh := s.fresh + 1 } ∧
        t.host = { s.host with resp := s.host.resp ++ [.spdmBytes bs] }))

/-- Host ports and Guyline links come up, go down and fail over (02 R44, R48, R51, R53), their ready bits under the
virtual I/O number bound to the die; a takeover sends the messages without acknowledgement again; a configuration
request is retried before the I/O die is released; the host's window reads and writes main memory, or the staging
window in recovery (01 R14, R21). The model's choices and readings in it: an access beyond BAR2's size is in no BAR (log 42), a port
that goes down clears its ready bit (log 32), and outside recovery the window answers Unsupported Request before the I/O die is
released (log 15). A read of the window leaves its lines as any coherent read does (log 12). -/
def Obligations.HostLinkEvents : Prop :=
  ∀ (s : State) (port rate width link off len : Nat) (bytes : List Byte),
    let h := s.host
    let other := 1 - h.active
    let answers (i : Instr) (x : Resp) : Prop := exec i s = .next { s with host := { h with resp := h.resp ++ [x] } }
    let only (t : State) : Prop := t = { s with pkg := { s.pkg with ready := t.pkg.ready }, host := t.host, fab := t.fab }
    let rerouted (t : State) : Prop := ∃ f : Op → List (Nat × Nat), t = { s with
      pkg := { s.pkg with ready := t.pkg.ready }, host := t.host, fab := t.fab, ops := s.ops.map (fun o => { o with via := f o }) }
    let released := s.pkg.relIo.getLsbD h.active
    let recovering := s.pkg.rcv.state ≠ 0 ∧ released = false
    let bound (v n : Nat) : Prop := v < 2 ∧ n < 2 ∧ s.pkg.cfg.iodie[v]? = some n ∧ s.pkg.cfg.iofence.getLsbD n = false
    (port < 2 → (recovering → s.pkg.rcv.port = port) → (¬recovering → s.pkg.cfg.iofence.getLsbD port = false ∧
      (s.pkg.relIo.getLsbD port = true ∨ h.active = port)) → Claims.goes (.hostPortTrained port rate width) s (fun t =>
        only t ∧ t.host.trained.getLsbD port = true ∧ t.host.down.getLsbD port = false ∧
        (∀ v, bound v port → t.pkg.ready.host.getLsbD v = true) ∧
        Tab.get 0 t.host.rate port = rate ∧ Tab.get 0 t.host.width port = width)) ∧
    (port < 2 → h.trained.getLsbD port = true → Claims.goes (.hostPortDlDown port) s (fun t =>
      only t ∧ t.host.trained.getLsbD port = false ∧ t.host.down.getLsbD port = true ∧
      ∀ v, bound v port → t.pkg.ready.host.getLsbD v = false)) ∧
    (h.trained.getLsbD other = true →
      let taken : State := { s with host := { h with active := other, msix := h.msix ++ h.unacked ++ [1], unacked := h.unacked ++ [1] } }
      exec .takeover s = .next taken ∧ (h.down.getLsbD h.active = true → exec .portFailover s = .next taken)) ∧
    (answers (.hostConfigRequest port) (if s.pkg.relIo.getLsbD port then .configOk else .crs)) ∧
    (∀ n, link < 18 → bound (link / 9) n → s.pkg.relIo.getLsbD n = true → Claims.goes (.guylineLinkReady link) s (fun t =>
      rerouted t ∧ t.fab = s.fab ∧ t.pkg.ready.guyline = s.pkg.ready.guyline ||| BitVec.twoPow 18 link)) ∧
    (link < 18 → s.pkg.ready.guyline.getLsbD link = true → Claims.goes (.linkFailure link) s (fun t =>
      rerouted t ∧ t.fab = { s.fab with err := s.fab.err ||| BitVec.twoPow 18 link } ∧ t.host.msix.getLast? = some 1 ∧
      t.pkg.ready.guyline = s.pkg.ready.guyline &&& ~~~(BitVec.twoPow 18 link))) ∧
    (released = false → s.pkg.rcv.state = 0 → answers (.hostBar2Write off bytes) .ur ∧ answers (.hostBar2Read off len) .ur) ∧
    (recovering → off + len ≤ 2 ^ 26 → answers (.hostBar2Read off len)
      (.data ((List.range len).map (fun i => Tab.get 0 s.pkg.rcv.staging (off + i))) false)) ∧
    (recovering → off + bytes.length ≤ 2 ^ 26 →
      Claims.goes (.hostBar2Write off bytes) s (fun t =>
        t = { s with pkg := { s.pkg with rcv := { s.pkg.rcv with staging := t.pkg.rcv.staging } } } ∧
        ∀ a, Tab.get 0 t.pkg.rcv.staging a =
          if off ≤ a ∧ a < off + bytes.length then bytes.getD (a - off) 0 else Tab.get 0 s.pkg.rcv.staging a)) ∧
    (released = true → 2 ^ h.bar2Size < off + len → answers (.hostBar2Read off len) .ur) ∧
    (released = true → 2 ^ h.bar2Size < off + bytes.length → answers (.hostBar2Write off bytes) .ur) ∧
    (released = true → off + bytes.length ≤ 2 ^ h.bar2Size → h.bar2Base + off + bytes.length ≤ 2 ^ 40 → s.svc.redirect = [] →
      Claims.noEngineOwns s → (∀ i, i < bytes.length → channelReady s (h.bar2Base + off + i) = true) →
      let a := s.fab.module * 2 ^ 46 + h.bar2Base + off
      Claims.goes (.hostBar2Write off bytes) s (fun t => t = { s with mem := t.mem, coh := t.coh } ∧
        ∀ x, memByte t x = if a ≤ x ∧ x < a + bytes.length then bytes.getD (x - a) 0 else memByte s x)) ∧
    (released = true → off + len ≤ 2 ^ h.bar2Size → h.bar2Base + off + len ≤ 2 ^ 40 → s.svc.redirect = [] →
      Claims.noEngineOwns s → (∀ i, i < len → channelReady s (h.bar2Base + off + i) = true) →
      let a := s.fab.module * 2 ^ 46 + h.bar2Base + off
      (∀ i, i < len → paRegion (a + i) ≠ 2 ∧ sectorDev s ((a + i) / 32) = 0) →
      Claims.goes (.hostBar2Read off len) s (fun t =>
        t = { s with coh := t.coh, mem := { s.mem with stale := t.mem.stale }, host := t.host } ∧
        t.host = { h with resp := h.resp ++ [.data ((List.range len).map (fun i => memByte s (a + i))) false] }))

/-- What other modules and the host do through the fabric's registers: a lost module's modified lines are poisoned
at home; an unanswered weak store reports NOROUTE cause 3; INTLV takes a valid pattern; the fabric, record-area,
quota, route and lend registers and the reduction groups take what is written to their fields, writes to reserved
bits being ignored (00 R8; 02 R62, R63; 03 R67). The model's readings in it: a write before the I/O die is released is answered with
Unsupported Request (log 15), a change of INTLV moves no data (log 30), and what a write of RED_CFG does while its group is enabled, or
to a reserved bit (log 31). -/
def Obligations.FabricAndRegisterEvents : Prop :=
  ∀ (s : State) (m n : Nat) (v : BitVec 64) (x : Word),
    let released := s.pkg.relIo.getLsbD s.host.active = true
    let w (off : Nat) : Instr := .registerWrite off v
    (m ≠ s.fab.module → s.fab.red = [] → Claims.goes (.moduleUnreachable m) s (fun t =>
      ∀ l, paRegion (128 * l) = 0 → (homeGet s l).owner = some (64 + m) → (homeGet s l).hstate = .x →
        (homeGet t l).hstate = .i ∧ ∀ i, i < 4 → sectorDev t (4 * l + i) = 0xFFFF)) ∧
    (∀ (o : Op) (cells : List (Nat × Byte)), Claims.mayPerform s o → s.ops = [o] → o.kind = .store false cells → o.strong = false → o.once = false →
      o.done < 5 → o.late = none → o.accs ≠ [] → (∀ a ∈ o.accs, ∃ x ∈ a.bytes, paModule x ≠ s.fab.module) → (∃ g : Tag, o.tag = some g ∧ g.handle = s.w.handle) →
      s.w.keys.faults.length < 4 → Claims.goes (.fabricResponseTimeout o.id) s (fun t =>
        t.ops = [] ∧ Claims.keepsRegisters s t ∧ Claims.keepsMemory s t ∧
        ∃ e : FaultEntry, t.w.keys.faults = s.w.keys.faults ++ [e] ∧ e.cause = 0x0B ∧ e.detail = 3)) ∧
    (released → intlvValid x = true → s.ctxs = [] → Claims.goes (.intlvWrite x) s (fun t =>
      t = { s with mem := t.mem, svc := { s.svc with intlv := x } })) ∧
    (released → intlvValid x = false → exec (.intlvWrite x) s = .next s) ∧
    (released → exec (w 0x20008) s = .next { s with fab := { s.fab with
      enable := v.extractLsb' 0 18, err := s.fab.err &&& ~~~(v.extractLsb' 18 18) } }) ∧
    (released → n < 32 → (ctxGet s n).state = 0 → Claims.goes (w (0x30100 + 8 * n)) s (fun t =>
      t = { s with ctxs := t.ctxs } ∧ ctxGet t n = { ctxGet s n with phrArea := v &&& 0xFFFFF0FFFFF00000 })) ∧
    (released → n < 32 → (ctxGet s n).state ≠ 0 → Claims.goes (w (0x40000 + 8 * n)) s (fun t =>
      t = { s with ctxs := t.ctxs } ∧ ctxGet t n = { ctxGet s n with quota := v &&& 0x000FFFFF000FFFFF })) ∧
    (released → n < 64 → Tab.get 0 s.fab.route n ≠ v.extractLsb' 0 18 →
      Claims.goes (w (0x20100 + 8 * n)) s (fun t => t = { s with fab := t.fab, host := t.host } ∧
        Tab.get 0 t.fab.route n = v.extractLsb' 0 18 ∧ t.host = { s.host with msix := s.host.msix ++ [1], unacked := s.host.unacked ++ [1] })) ∧
    (released → n < 16 → v.toNat ≤ 4096 → Tab.get 0 s.svc.lend n ≤ v.toNat → Claims.goes (w (0x50100 + 8 * n)) s (fun t =>
      t = { s with svc := { s.svc with lend := t.svc.lend } } ∧ Tab.get 0 t.svc.lend n = v.toNat)) ∧
    (s.pkg.relIo.getLsbD s.host.active = false → s.pkg.rcv.state = 0 →
      exec (w n) s = .next { s with host := { s.host with resp := s.host.resp ++ [.ur] } }) ∧
    (released → n < 256 → (redGet s n).enable = false →
      let g := redGet s n
      let leaves (i : Nat) (g' : RedGroup) : Prop := Claims.goes (.redCfgWrite n i v) s (fun t =>
        t = { s with fab := { s.fab with red := t.fab.red } } ∧ redGet t n = g')
      leaves 0 { g with members := v } ∧
      leaves 1 { g with result := v &&& 0x000FFFFFFFFFFFE0 } ∧
      (v.getLsbD 8 = true → redEnableOk s g (bits v.toNat 3 0) (bits v.toNat 7 4) = true →
        leaves 2 { g with
          timeout := v.extractLsb' 32 32, op := bits v.toNat 7 4, type := bits v.toNat 3 0, enable := true
          seq := 0, contribs := [] })) ∧
    (released → n < 256 → (redGet s n).enable = true →
      exec (.redCfgWrite n 0 v) s = .next s ∧ exec (.redCfgWrite n 1 v) s = .next s)

/-- In-network reduction (02 R59-R62): a contribution of a member in its round is taken and any other is counted;
with every member's in, the record holds the combination, here of one member or of two, and with a timeout value
zero and status 1; the sequence moves on and no other byte of memory changes. The record is in region 0, no block of memory has
been moved, and no engine owns its line. That a contribution from a module outside the member set is counted too is the model's choice
(log 42). -/
def Obligations.ReductionRounds : Prop :=
  ∀ (s : State) (n m : Nat) (seq : Word) (v : BitVec 64), n < 256 →
    let g := redGet s n
    let leaves (i : Instr) (g' : RedGroup) : Prop := Claims.goes i s (fun t =>
      t = { s with fab := { s.fab with red := t.fab.red } } ∧ redGet t n = g' ∧ ∀ k, k ≠ n → redGet t k = redGet s k)
    let a := g.result.toNat
    let ends (i : Instr) (value status : Nat) : Prop := a % 32 = 0 → paRegion a = 0 → s.svc.redirect = [] → Claims.noEngineOwns s → Claims.goes i s (fun t =>
      memNum t a 8 = value ∧ memNum t (a + 8) 4 = g.seq.toNat ∧ memNum t (a + 12) 4 = status ∧
      (∀ x, x < a ∨ a + 32 ≤ x → memByte t x = memByte s x) ∧ redGet t n = { g with seq := g.seq + 1, contribs := [] })
    (g.enable = true → seq = g.seq → m < 64 → g.members.getLsbD m = true → (∀ c ∈ g.contribs, c.1 ≠ m) →
      leaves (.reductionContribution n m seq v) { g with contribs := g.contribs ++ [(m, v)] }) ∧
    (g.enable = false ∨ seq ≠ g.seq ∨ g.members.getLsbD m = false ∨ (∃ c ∈ g.contribs, c.1 = m) →
      leaves (.reductionContribution n m seq v) { g with discards := g.discards + 1 }) ∧
    (g.enable = true → g.contribs ≠ [] → ends (.reductionTimeout n) 0 1) ∧
    (∀ x, g.enable = true → m < 64 → g.members = BitVec.twoPow 64 m → g.contribs = [(m, x)] →
      ends (.reductionResult n) x.toNat 0) ∧
    (∀ (k : Nat) (x y : BitVec 64), g.enable = true → m < k → k < 64 → g.members = BitVec.twoPow 64 m ||| BitVec.twoPow 64 k →
      (g.contribs = [(m, x), (k, y)] ∨ g.contribs = [(k, y), (m, x)]) → g.type = 0 →
      let sum := x.toInt + y.toInt
      (g.op = 0 → ends (.reductionResult n) (BitVec.ofInt 64 (Claims.clampTo 64 true sum)).toNat
        (if Claims.clampTo 64 true sum = sum then 0 else 4)) ∧
      (g.op = 3 → ends (.reductionResult n) (x &&& y).toNat 0) ∧ (g.op = 5 → ends (.reductionResult n) (x ^^^ y).toNat 0))

/-- Context commands (03 R68, R69): a creation reports its first failing check or makes the context and its queues;
a destruction stops the context's waves, takes no packet any more, discards its grids, chains and what its queues wait for, and completes
once its operations are performed, when its queues, groups and records go too. SUSPEND_CONTEXT stops
the context's queues and pre-empts its groups, and ends once nothing of it is resident and its work is performed;
RESUME_CONTEXT lets its queues run again, where every virtual die of the span is bound to a die that nothing fences; PREEMPT_GRID pre-empts a grid, or lets a pre-empted one go on, and marks
one still queued. A command for a context in another state or being destroyed, or for no grid, changes nothing but
its result (04 R108, R113, R114). That PREEMPT_GRID ends once it has marked its grid is the model's reading (log 29). -/
def Obligations.ContextCommands : Prop :=
  (∀ (s : State) (c desc : Nat), s.pkg.relIo.getLsbD s.host.active = true → s.host.ctxBusy = false →
     let result (n : Nat) : State := { s with host := { s.host with ctxResult := n } }
     let bs := ctxDesc s (desc / 128 * 128)
     exec .ctxCmdNone s = .next s ∧ exec .ctxCmdReserved s = .next (result 8) ∧
     ((ctxGet s c).state ≠ 0 → exec (.ctxCreate c desc) s = .next (result 6)) ∧
     (createResult s c bs ≠ 0 → exec (.ctxCreate c desc) s = .next (result (createResult s c bs))) ∧
     (∀ b, createResult s c bs = 0 → bs = some b → Claims.goes (.ctxCreate c desc) s (fun t =>
       let x := ctxGet t c
       x.state = 1 ∧ x.span = field b 0 0 ∧ x.first = field b 1 1 ∧ x.ptroot = field b 15 8 ∧ x.qtable = field b 23 16 ∧
       x.trapvec = field b 31 24 ∧ x.phrArea = (ctxGet s c).phrArea ∧ x.halt.count = 0 ∧
       (∀ k, k ≠ c → ctxGet t k = ctxGet s k) ∧ t.host.ctxResult = 0 ∧
       t.queues.length = s.queues.length + 128 * (if x.span = 0 then 1 else if x.span = 1 then 16 else 32))) ∧
     ((ctxGet s c).state = 0 → exec (.ctxDestroy c) s = .next (result 6)) ∧
     ((ctxGet s c).state ≠ 0 → Claims.goes (.ctxDestroy c) s (fun t =>
       t.host.ctxBusy = true ∧ (ctxGet t c).destroying = true ∧ t.records = s.records ∧ t.ops = s.ops ∧ Claims.keepsMemory s t ∧
       (∀ g ∈ t.groups, g.ctx = c → ∀ w ∈ g.peers, w.status = .exited ∨ w.status = .halted ∨ w.status = .stopped) ∧
       (s.w.status ≠ .idle → s.g.ctx = c → t.w.status = .exited ∨ t.w.status = .halted ∨ t.w.status = .stopped) ∧
       (∀ q ∈ t.queues, q.ctx = c → q.window = [] ∧ q.waitFor = none ∧ q.preempts = []) ∧
       (∀ n q, findQueue t n = some q → q.ctx = c → exec (.packetTake n) t = .next t) ∧
       (∀ g ∈ t.grids, g.ctx ≠ c) ∧ ∀ x ∈ t.chains, x.ctx ≠ c)) ∧
     ((ctxGet s c).destroying = true → (ctxGet s c).byHost = true →
       (∀ o ∈ s.ops, handleCtx o.owner = c → noAccess s o = true ∨ settled s o = true) →
       Claims.goes (.ctxDestroyComplete c) s (fun t =>
         t.host = { s.host with ctxBusy := false, ctxResult := 0 } ∧ (∀ a, memByte t a = memByte s a) ∧
         t.ops = s.ops.filter (fun o => handleCtx o.owner != c) ∧ (∀ g ∈ t.groups, g.ctx ≠ c) ∧ (∀ r ∈ t.records, r.ctx ≠ c) ∧
         (∀ q ∈ t.queues, q.ctx ≠ c) ∧
         ctxGet t c = { phrArea := (ctxGet s c).phrArea, halt := (ctxGet s c).halt } ∧
         ∀ k, k ≠ c → ctxGet t k = ctxGet s k))) ∧
  (∀ (s : State) (c q p : Nat), s.pkg.relIo.getLsbD s.host.active = true → s.host.suspBusy = false →
     let result (n : Nat) : State := { s with host := { s.host with suspBusy := false, suspResult := n } }
     let x := ctxGet s c
     let asked (t : State) (own : Group → Bool) : Prop :=
       (∀ g ∈ t.groups, own g = true → g.preempt.isSome = true) ∧
       (s.w.status ≠ .idle → own s.g = true → t.g.preempt.isSome = true)
     let ofIt (g : Group) : Bool := g.ctx == c && g.queue == q && g.packet == p
     let bound : Prop := ∀ d ∈ ctxDies x, ∃ n, s.pkg.cfg.cdie[d]? = some n ∧ n < 32 ∧ s.pkg.fencedC.getLsbD n = false ∧
       s.pkg.cfg.cfence.getLsbD n = false
     (x.state ≠ 1 ∨ x.destroying = true →
       exec (.suspendContext c) s = .next (result 1) ∧ exec (.preemptGrid c q p) s = .next (result 1)) ∧
     (x.state = 1 → x.destroying = false → Claims.goes (.suspendContext c) s (fun t =>
       t.host = { s.host with suspBusy := true } ∧ ctxGet t c = { x with suspending := true } ∧
       (∀ y ∈ t.queues, y.ctx = c → y.stopped = true) ∧ asked t (fun g => g.ctx == c) ∧ Claims.keepsMemory s t)) ∧
     (x.suspending = true → x.destroying = false → (∀ g ∈ allGroups s, g.ctx ≠ c) →
       (∀ o ∈ s.ops, handleCtx o.owner = c → (∃ off n r, o.kind = .arrive off n r) ∨ (o.tag = none ∧ settled s o = true)) →
       Claims.goes (.suspendDrained c) s (fun t => t = { (result 0) with ctxs := t.ctxs } ∧
         ctxGet t c = { x with state := 2, suspending := false } ∧ ∀ k, k ≠ c → ctxGet t k = ctxGet s k)) ∧
     (x.state ≠ 2 ∨ x.destroying = true → exec (.resumeContext c) s = .next (result 1)) ∧
     (x.state = 2 → x.destroying = false → ¬bound → exec (.resumeContext c) s = .next (result 3)) ∧
     (x.state = 2 → x.destroying = false → bound → Claims.goes (.resumeContext c) s (fun t =>
       ctxGet t c = { x with state := 1 } ∧ t.host.suspBusy = false ∧ t.host.suspResult = 0 ∧
       ∀ y ∈ t.queues, y.ctx = c → y.stopped = false)) ∧
     (x.state = 1 → x.destroying = false → (∀ g ∈ s.grids, g.ctx = c → g.queue = q → g.packet ≠ p) →
       ((∀ y, ctxQueue s c q = some y → queuedGrid s y p = false) → exec (.preemptGrid c q p) s = .next (result 2)) ∧
       (∀ y, ctxQueue s c q = some y → findQueue s y.gq = some y → queuedGrid s y p = true → y.preempts = [] →
         Claims.goes (.preemptGrid c q p) s (fun t => t = { (result 0) with queues := t.queues } ∧
           findQueue t y.gq = some { y with preempts := [p] }))) ∧
     (∀ gr ∈ s.grids, x.state = 1 → x.destroying = false → gr.ctx = c → gr.queue = q → gr.packet = p → s.grids = [gr] →
       let there : Prop := gr.next < gr.gx * gr.gy * gr.gz ∨ (∃ g ∈ allGroups s, ofIt g = true) ∨
         ∃ r ∈ s.records, ∃ g, r.saved = some g ∧ ofIt g = true
       (¬there → exec (.preemptGrid c q p) s = .next (result 2)) ∧
       (there → Claims.goes (.preemptGrid c q p) s (fun t => t.host = (result 0).host ∧ t.grids = [{ gr with preempted := !gr.preempted }] ∧
         Claims.keepsMemory s t ∧ (gr.preempted = false → asked t ofIt)))))

/-- Queues and placement (03 R71-R85, R87; 08 R212): a packet is taken or waited for, its type byte cleared and the read index written,
or it stops its queue, with the error record written and the vector raised; no other byte of memory changes. A queue whose
error record is cleared goes on by the descriptor read again; a monitored word wakes its queue; a group, or a whole co-resident grid, is
placed with the launch state of R78 and VRAND seeded (14 R366). What the reads of the units leave in caches is the model's (log 12).
That LAUNCH checks,
enqueues and completes in one event is the model's reading (log 28). -/
def Obligations.QueueEvents : Prop :=
  ∀ (s : State) (n die core line : Nat) (q : Queue), findQueue s n = some q →
    (let unit (t : State) : Prop := t = { s with
       grids := t.grids, queues := t.queues, coh := t.coh, mem := t.mem, host := t.host, fab := { s.fab with red := t.fab.red } }
     let slot := q.ring + 64 * (q.next % 2 ^ q.slots)
     let consumed (t : State) : Prop := Claims.noEngineOwns s → t.host = s.host ∧ unit t ∧ ∀ p ps,
       unitPlaces s q.server q.ctx .write slot 1 = some [p] →
       unitPlaces (memWrite s [(p, 0)]) q.server q.ctx .write q.rindex 8 = some ps → (∀ a ∈ p :: ps, paRegion a ≠ 2) →
       ∀ a, memByte t a = Claims.cellAt ((p, 0) :: ps.zip (Claims.littleEndian 8 (q.next + 1))) a (memByte s a)
     let recorded (code : Nat) (t : State) : Prop := Claims.noEngineOwns s → unit t ∧
       (2 ≤ q.vector → q.vector ≤ 2047 → t.host.msix.getLast? = some q.vector) ∧
       (unitPlaces s q.server q.ctx .write q.errrec 16 = none → Claims.keepsMemory s t ∧ .queueError n code ∈ t.host.log) ∧
       ∀ ps, unitPlaces s q.server q.ctx .write q.errrec 16 = some ps → (∀ a ∈ ps, paRegion a ≠ 2) →
         ∀ a, memByte t a = Claims.cellAt (ps.zip (Claims.littleEndian 4 code ++ Claims.littleEndian 4 0 ++ Claims.littleEndian 8 q.next)) a
           (memByte s a)
     queueRuns s q = true → waitMet s q = true →
      (∀ g, headPacket s q = .grid g → handleTaken s q = false → Claims.goes (.packetTake n) s (fun t => consumed t ∧
        t.grids = s.grids ++ [{ g with preempted := q.preempts.contains q.next }] ∧
        findQueue t n = some { q with waitFor := none, next := q.next + 1, preempts := q.preempts.erase q.next })) ∧
      (∀ v a, headPacket s q = .wait v a → Claims.goes (.packetTake n) s (fun t => consumed t ∧
        t.grids = s.grids ∧ findQueue t n = some { q with waitFor := some (a, v), next := q.next + 1 })) ∧
      (∀ code, headPacket s q = .error code → Claims.goes (.packetTake n) s (fun t => recorded code t ∧
        t.grids = s.grids ∧ findQueue t n = some { q with waitFor := none, code := code })) ∧
      (headPacket s q = .none ∨ headPacket s q = .unready → Claims.noEngineOwns s → Claims.goes (.packetTake n) s (fun t =>
        t.grids = s.grids ∧ Claims.keepsMemory s t ∧ findQueue t n = some { q with waitFor := none }))) ∧
    (∀ (b : Byte) (ds : List Byte), (unitRead s q.server q.ctx q.errrec 4).map numOf = some 0 →
      let r := queueOf q ds
      let stop := if q.waitFor.isSome then q.next - 1 else q.next
      unitRead s q.server q.ctx (r.ring + 64 * (stop % 2 ^ r.slots)) 1 = some [b] →
      unitRead s q.server q.ctx ((ctxGet s q.ctx).qtable + 64 * q.idx) 64 = some ds → (queueOf q ds).enable = true →
      queueBad ds = false → q.code ≠ 0 → q.code ≠ 7 → (ctxGet s q.ctx).destroying = false → Claims.noEngineOwns s →
      Claims.goes (.queueResume n) s (fun t => Claims.keepsMemory s t ∧
        findQueue t n = some { r with
          code := 0, next := if b = 0 then stop + 1 else stop, waitFor := if b = 0 then q.waitFor else none })) ∧
    (∀ m ∈ s.coh.monitors, m.line = line → m.woken = true → m.die = q.server → queueRuns s q = true → waitMet s q = true →
      Claims.waitsStand s → Claims.noEngineOwns s → Claims.goes (.monitorWake line) s (fun t =>
        t = { s with coh := t.coh, queues := t.queues, mem := { s.mem with stale := t.mem.stale } } ∧
        findQueue t n = some { q with waitFor := none } ∧ ∀ x ∈ t.coh.monitors, x.line = line → x.woken = false)) ∧
    (s.coh.polling.contains (die, line) = true → s.coh.monitors = [] → Claims.waitsStand s → Claims.noEngineOwns s →
      Claims.goes (.monitorPoll die line) s (fun t =>
      t = { s with coh := t.coh, queues := t.queues, mem := { s.mem with stale := t.mem.stale } } ∧ t.coh.monitors = [{ line := line, die := die, woken := false }] ∧
      (die, line) ∉ t.coh.polling)) ∧
    (∀ gr, headGrid s q = some gr → bit gr.flags 0 = false → gr.preempted = false → queueRuns s q = true → windowRoom q = true →
      (ctxDies (ctxGet s q.ctx)).contains die = true → mayTake s die core (2 ^ 64 + n) (candidates s q.ctx) = true →
      fits s die core (launchGroup s gr gr.next 0 0) = true →
      (recordRoom s gr.ctx (recordSize gr.desc)).isSome = true → Claims.goes (.groupPlace n die core) s (fun t =>
        t.records.length = s.records.length + 1 ∧
        (∃ x, findQueue t n = some x ∧ x.window = q.window ++ [{ packet := gr.packet, linear := gr.next, groups := 1, complete := 0, err := false }]) ∧
        ∃ g ∈ t.groups, g.die = die ∧ g.core = core ∧ g.ctx = gr.ctx ∧ g.packet = gr.packet ∧ g.linear = gr.next ∧
          g.desc = gr.desc ∧ g.lmem = [] ∧ g.x = BitVec.ofNat 32 (gr.next % gr.gx) ∧ g.peers.length = gr.desc.waves ∧
          ∀ w ∈ g.peers, w.rand = { x := BitVec.ofNat 32 gr.next, y := BitVec.ofNat 32 w.idx, z := 0x6C078965, w := 0x9E3779B9 } ∧
            w.status = .ready ∧ w.pc = BitVec.ofNat 56 gr.desc.entry ∧ w.mode = gr.desc.mode ∧ w.stack = [] ∧
            Tab.get 0 w.sreg 0 = g.x ∧ Tab.get 0 w.sreg 1 = g.y ∧ Tab.get 0 w.sreg 2 = g.z ∧ Tab.get 0 w.sreg 60 = 0xFFFFFFFF ∧
            Tab.get 0 w.sreg 61 = 0xFFFFFFFF ∧ Tab.get 0 w.sreg 62 = 0xFFFFFFFF ∧ Tab.get 0 w.sreg 3 = 0 ∧ w.vreg = [])) ∧
    (∀ (gr : Grid) (cores : List Nat) (u : State), headGrid s q = some gr → bit gr.flags 0 = true → gr.preempted = false →
      gr.next = 0 → queueRuns s q = true → windowRoom q = true → cores.length = gr.size →
      (∀ x ∈ cores, (ctxDies (ctxGet s q.ctx)).contains (x / 32) = true) →
      ((candidates s q.ctx).find? (fun x => x.prio == q.prio)).map (·.key) = some (2 ^ 64 + n) →
      wholeWaits (candidates s q.ctx) (2 ^ 64 + n) = false →
      (∀ x ∈ cores, noneAbove s (x / 32) (x % 32) q.prio (candidates s q.ctx) = true) →
      placeAll gr cores 0 s = some u → Claims.goes (.coresidentGridPlace n cores) s (fun t => t.groups = u.groups ∧
        ∃ x y, findQueue t n = some x ∧ findQueue u n = some y ∧
          x.window = y.window ++ [{ packet := gr.packet, linear := 0, groups := gr.size, complete := 0, err := false }])) ∧
    (∀ (o : Op) (addrs : List (Nat × Nat)), Claims.mayPerform s o → o.kind = .launch addrs → o.rejoined = none →
      Claims.noEngineOwns s → (∀ cs, launchCheck s addrs = .ok cs → Claims.goes (.launchEnqueueComplete o.id) s (fun t =>
        Claims.leavesFlight s t o ∧ Claims.keepsRegisters s t ∧ ∀ a, locByte t.g a = locByte s.g a)) ∧
      (∀ x, launchCheck s addrs = .error x → s.ops = [o] → s.w.trap.on = false → (ctxGet s s.g.ctx).trapvec ≠ 0 →
        s.w.status = .waiting (.strong o.id) → Claims.goes (.launchEnqueueComplete o.id) s (fun t =>
          t.ops = [] ∧ t.w.trap.on = true ∧ t.w.trap.cause = BitVec.ofNat 32 x.cause ∧
          t.w.trap.detail = BitVec.ofNat 32 x.detail ∧ t.w.trap.pc = o.pc ∧ Claims.keepsMemory s t)))

/-! ## Events: phases, suspension and pre-emption (04 R91-R124) -/

/-- A continuation or a resumed group becomes resident as its record's committed slot gives it, its chains and held
arrivals with it; a group whose waves have exited and
whose work is performed leaves with its record freed; a phase end commits what the next phase keeps and flips the
record's selector; the grace time's end asks for a full save, or with a wave in trap mode resets the context, once, HALT_LOG naming
that wave of lowest linear index (R124); a full
save of a lone wave commits its state and holds it back; a halted group completes with its queue's vector raised. A
commit writes the record's head and the slot that was free, and no other byte of memory. Where each byte of a slot stands is the
model's choice (log 9). -/
def Obligations.PhasesSavesAndHalts : Prop :=
  ∀ (s : State) (h : BitVec 64) (die core : Nat) (r : Record),
    let g := wholeGroup s
    let own := groupHandle s.g
    let leaves (t : State) : Prop := t.w = {} ∧ t.g = {}
    let freed (t : State) : Prop := leaves t ∧ (∀ x ∈ t.groups, groupHandle x ≠ own) ∧ ∀ x ∈ t.records, x.handle ≠ own
    let commits (t : State) (kind phase : Nat) (held : Bool) (post : Group → Prop) : Prop := ∃ n : Group,
      let base := ownPa s ((areaBase (ctxGet s r.ctx) + r.off) % 2 ^ 40)
      (s.svc.redirect = [] → ∀ a, a < base ∨ base + 256 ≤ a → a / 128 ∉ slotLines s r (1 - r.selector) (kind != 1) n →
        memByte t a = memByte s a) ∧
      { r with selector := 1 - r.selector, kind := kind, phase := phase, heldBack := held, saved := some n, other := r.saved } ∈ t.records ∧
      post n
    (∀ x, recordOf s h = some r → recordGroup s r = some x → (ctxGet s r.ctx).state = 1 → (ctxGet s r.ctx).suspending = false →
      (ctxGet s r.ctx).destroying = false → (ctxDies (ctxGet s r.ctx)).contains die = true → Claims.noEngineOwns s →
      mayTake s die core h.toNat (candidates s r.ctx) = true → fits s die core x = true → offered s r x die core = true →
      Claims.goes (.continuationPlace h die core) s (fun t =>
        t = { s with groups := t.groups, slots := t.slots, coh := t.coh, mem := { s.mem with stale := t.mem.stale }
                     chains := t.chains, held := t.held } ∧
        t.groups.length = s.groups.length + 1 ∧ { x with die := die, core := core, chains := [], holds := [] } ∈ t.groups ∧
        (∀ c ∈ t.chains, c.group = groupHandle x → c.die = die ∧ c.core = core) ∧
        ∀ y ∈ t.held, y.group = groupHandle x → y.die = die ∧ y.core = core)) ∧
    (s.w.status ≠ .idle →
      ((∀ w ∈ g.peers, w.status = .exited) → groupQuiet s own = true → Claims.goes .groupComplete s freed) ∧
      ((∀ w ∈ g.peers, w.status = .exited ∨ w.status = .waiting .phaseEnd) → (∃ w ∈ g.peers, w.status = .waiting .phaseEnd) →
        exec .phaseEnd s = .next { s with g := { s.g with phaseOver := true, saveDue := false } }) ∧
      (s.g.phaseOver = true → drained s g = true → s.g.coresident = false ∨ s.g.preempt ≠ none → recordOf s own = some r → Claims.noEngineOwns s →
        Claims.goes .phaseSpill s (fun t => leaves t ∧ commits t 1 (s.g.phase + 1) s.g.preempt.isSome (fun n =>
          n.phaseOver = false ∧ n.claims = [] ∧ n.peers.length = g.peers.length ∧
          (∀ w ∈ n.peers, w.hmask = 0 ∧ (w.status = .exited ∨ w.status = .ready)) ∧
          ∀ a, locByte n a = if a < s.g.desc.carried then locByte s.g a else 0))) ∧
      (s.g.preempt ≠ none → s.g.phaseOver = false → (∃ w ∈ g.peers, w.status ≠ .exited ∧ w.status ≠ .waiting .phaseEnd) →
        (let c := ctxGet s s.g.ctx
         let resets (w : Wave) : Prop := Claims.goes .graceExpiry s (fun t => (ctxGet t s.g.ctx).destroying = true ∧
           (ctxGet t s.g.ctx).halt = { cause := 0xFF, count := min (c.halt.count + 1) (2 ^ 24 - 1), pc := w.pc.setWidth 32, handle := w.handle })
         let rival (x : Group) : Prop := x.ctx = s.g.ctx ∧ x.asked = s.g.asked ∧ x.preempt ≠ none ∧ x.phaseOver = false ∧
           phaseEnded x = false ∧ ∃ w ∈ x.peers, w.trap.on = true
         (c.destroying = true → exec .graceExpiry s = .next s) ∧
         (c.destroying = false → (∀ w ∈ g.peers, w.trap.on = false) →
           exec .graceExpiry s = .next { s with g := { s.g with saveDue := true } }) ∧
         (c.destroying = false → s.g.peers = [] → s.w.trap.on = true →
           ((∀ x ∈ s.groups, rival x → s.g.linear ≤ x.linear) → resets s.w) ∧
           ∀ x w, s.groups = [x] → rival x → x.linear < s.g.linear → x.peers = [w] → resets w))) ∧
      (s.g.peers = [] → s.w.ejected = [] → s.w.stackDue = none → s.g.saveDue = true → issuedDone s g = true →
        recordOf s own = some r → Claims.noEngineOwns s →
        Claims.goes .fullSave s (fun t => leaves t ∧ commits t 2 s.g.phase true (fun n =>
          n.peers = [{ s.w with clause := none, readsSince := [] }] ∧ n.lmem = s.g.lmem))) ∧
      (∀ q, (∃ w ∈ g.peers, w.status = .halted) → (∀ o ∈ s.ops, groupOf o.owner = own → settled s o = true) →
        ctxQueue s s.g.ctx s.g.queue = some q → 2 ≤ q.vector → q.vector ≤ 2047 → Claims.goes .haltComplete s (fun t =>
          freed t ∧ t.host.msix.getLast? = some q.vector)))

/-! ## Events: translation and memory service (03 R66, R67; 07 R193-R198; 08 R214-R220) -/

/-- XLT_CMD: op 0 does nothing and op 3 ends with result 2; an invalidation fails with result 1 for a free context,
and else removes from every TLB of the context's dies its entries in the range, keeping the others, and stays busy
until what was translated before, and what was issued in the range since (log 43), is performed. A walk's end installs
its page where no TLB has it, and completes what waits on it; a walk that faults installs nothing (07 R195). -/
def Obligations.TranslationInvalidation : Prop :=
  ∀ (s : State) (c size die core va : Nat), s.pkg.relIo.getLsbD s.host.active = true →
    let result (n : Nat) : State := { s with
      xlt := { s.xlt with busy := false, result := n, waitOps := [], range := none } }
    let x := ctxGet s c
    let n := 4096 * 2 ^ (size % 16)
    let lo := s.xlt.va.toNat % 2 ^ 56 / n * n
    let meets (e : TlbEntry) : Prop := e.va < lo + n ∧ lo < e.va + 4096 * 2 ^ e.size
    let drops (t : State) (gone : TlbEntry → Prop) : Prop :=
      t = { s with xlt := t.xlt } ∧ t.xlt.busy = decide (x.state ≠ 2) ∧
      (∀ p ∈ t.xlt.core, ((p.1 / 32) ∈ ctxDies x) → ∀ e ∈ p.2, e.ctx = c → ¬gone e) ∧
      (∀ p ∈ t.xlt.biv, ((p.1 / 16) ∈ ctxDies x) → ∀ e ∈ p.2, e.ctx = c → ¬gone e) ∧
      (∀ p ∈ t.xlt.die, p.1 ∈ ctxDies x → ∀ e ∈ p.2, e.ctx = c → ¬gone e) ∧
      (∀ p ∈ t.xlt.walker, ∀ w ∈ p.2, w.ctx ≠ c) ∧
      ∀ p ∈ s.xlt.die, ∀ e ∈ p.2, e.ctx ≠ c ∨ ¬gone e → ∃ k ∈ t.xlt.die, k.1 = p.1 ∧ e ∈ k.2
    exec .xltCmdNone s = .next s ∧
    (s.xlt.busy = false → exec .xltCmdReserved s = .next (result 2)) ∧
    (s.xlt.busy = false → x.state = 0 →
      exec (.xltInvalidateAll c) s = .next (result 1) ∧ exec (.xltInvalidateRange c size) s = .next (result 1)) ∧
    (s.xlt.busy = false → x.state ≠ 0 →
      Claims.goes (.xltInvalidateAll c) s (fun t => drops t (fun _ => True)) ∧
      Claims.goes (.xltInvalidateRange c size) s (fun t => drops t meets)) ∧
    (s.xlt.busy = true →
      ((∀ o ∈ s.ops, o.id ∈ s.xlt.waitOps → settled s o = true) → rangePending s = false →
        exec .xltInvalidateComplete s = .next (result 0)) ∧
      ((∃ o, findOp s o.id = some o ∧ o.id ∈ s.xlt.waitOps ∧ settled s o = false) → exec .xltInvalidateComplete s = .next s) ∧
      (rangePending s = true → exec .xltInvalidateComplete s = .next s)) ∧
    (va < 2 ^ 56 → core < 32 → (∀ e ∈ Tab.get [] s.xlt.core (die * 32 + core), e.covers c va = false) →
      (∀ e ∈ Tab.get [] s.xlt.die die, e.covers c va = false) →
      let installs (e : TlbEntry) (t : State) : Prop :=
        t = { s with xlt := t.xlt, coh := t.coh, mem := { s.mem with stale := t.mem.stale } } ∧
        e ∈ Tab.get [] t.xlt.core (die * 32 + core) ∧ e ∈ Tab.get [] t.xlt.die die
      ((∀ w ∈ s.xlt.walks, w.die ≠ die) →
        (∀ e ps, walk s die c va = .ok (e, ps) → Claims.goes (.pageWalkComplete die core c va) s (installs e)) ∧
        (∀ f, walk s die c va = .error f → Claims.goes (.pageWalkComplete die core c va) s (Claims.onlyCaches s))) ∧
      (∀ (w : Walk) (e : TlbEntry) (ps : List WalkEntry), s.xlt.walks = [w] → w.die = die → w.ctx = c → w.va / 2 ^ 21 = va / 2 ^ 21 →
        walk s die c w.va = .ok (e, ps) → e.covers c va = true → (∀ y ∈ w.waiting, e.covers c y = true) →
        Claims.goes (.pageWalkComplete die core c va) s (fun t => installs e t ∧ t.xlt.walks = [])))

/-- MEM_CMD reports its first failing check and otherwise opens its moves; a move's switch asks 34 agents, makes the
target the block's home and gives a block brought back its own home again; after the last acknowledgement of the last
move the command is done; a die that no block is to be brought back to comes back at once; a healed line reads zero,
good, where a redirected block holds it; remapping fences the old compute die, or waits while a phase is resident on it, and rebinds a memory die that is
offline and holds no block. The order of results 2, 4 and 5 is the model's reading (log 30), and that an offline
target die is no bar to a move is its choice (log 45). -/
def Obligations.MemoryServiceEvents : Prop :=
  ∀ (s : State) (m b tm tb a : Nat), s.pkg.relIo.getLsbD s.host.active = true →
    let v := s.svc
    let result (n : Nat) : State :=
      { s with svc := { v with moved := 0, busy := false, result := n, goingOffline := none, comingOnline := none } }
    let svc (t : State) : Prop := t = { s with svc := t.svc }
    let inRange : Prop := m < 16 ∧ tm < 16 ∧ b < 4096 ∧ tb < 4096
    (v.busy = false →
      exec .memCmdReserved s = .next (result 1) ∧
      (¬inRange → exec (.memMoveBlock m b tm tb) s = .next (result 1)) ∧
      (inRange → freeLend s tm tb = false → exec (.memMoveBlock m b tm tb) s = .next (result 2)) ∧
      (inRange → freeLend s tm tb = true → v.offline.getLsbD m = true → exec (.memMoveBlock m b tm tb) s = .next (result 4)) ∧
      (inRange → freeLend s tm tb = true → v.offline.getLsbD m = false → redirectOf s m b ≠ none →
        exec (.memMoveBlock m b tm tb) s = .next (result 5)) ∧
      (inRange → freeLend s tm tb = true → v.offline.getLsbD m = false → redirectOf s m b = none →
        exec (.memMoveBlock m b tm tb) s = .next { s with svc := { v with busy := true, moved := 0, moves := v.moves ++
          [{ die := m, block := b, tdie := tm, tblock := tb, switched := false, acks := [], back := false }] } }) ∧
      (16 ≤ m → exec (.memOfflineDie m) s = .next (result 1) ∧ exec (.memOnlineDie m) s = .next (result 1)) ∧
      (m < 16 → v.offline.getLsbD m = true → exec (.memOfflineDie m) s = .next (result 4)) ∧
      (m < 16 → v.offline.getLsbD m = false → exec (.memOnlineDie m) s = .next (result 4)) ∧
      (m < 16 → v.offline.getLsbD m = false → v.moves = [] → (evacSpace s m).length < (evacuate s m).length →
        Claims.goes (.memOfflineDie m) s (fun t => svc t ∧ t.svc.result = 3 ∧ t.svc.degraded.getLsbD m = true ∧ t.svc.moves = [])) ∧
      (m < 16 → v.offline.getLsbD m = false → v.moves = [] → evacuate s m ≠ [] → (evacuate s m).length ≤ (evacSpace s m).length →
        Claims.goes (.memOfflineDie m) s (fun t => svc t ∧ t.svc.goingOffline = some m ∧ t.svc.busy = true ∧
          t.svc.moves.map (fun x => (x.die, x.block)) = (evacuate s m).map (fun x => (m, x)))) ∧
      (m < 16 → v.offline.getLsbD m = true → v.moves = [] → v.redirect = [] → v.goingOffline = none →
        (∃ f, s.pkg.cfg.mdie[m]? = some f ∧ f < 16 ∧ s.pkg.cfg.mfence.getLsbD f = false ∧ s.pkg.relM.getLsbD f = true ∧
          (.base, f) ∉ s.pkg.late ∧ (.mcache, f) ∉ s.pkg.late) →
        Claims.goes (.memOnlineDie m) s (fun t => t.svc.offline.getLsbD m = false ∧ t.svc.busy = false ∧ t.svc.result = 0 ∧
          t.pkg.ready.mbase.getLsbD m = true ∧ t.pkg.ready.mcache.getLsbD m = true ∧ ∀ y, memByte t y = memByte s y)) ∧
      (∀ line, line = storagePlace s (s.fab.module * 2 ^ 46 + v.addr.toNat % 2 ^ 40 / 128 * 128) → line % 128 = 0 →
       paRegion line = 0 → Claims.noEngineOwns s → Claims.goes .memHealLine s (fun t => t.svc = (result 0).svc ∧
        (∀ y, memByte t y = if line ≤ y ∧ y < line + 128 then 0 else memByte s y) ∧
        ∀ i, i < 4 → sectorDev t (line / 32 + i) = 0))) ∧
    (∀ x, v.moves.find? (fun y => y.die == m) = some x → x.block = b → x.switched = false → Claims.goes (.homeSwitch m b) s (fun t =>
      t = { s with mem := t.mem, svc := { v with redirect := t.svc.redirect, moves := v.moves.map (fun y =>
        if y = x then { x with switched := true, acks := List.range 34 } else y) } } ∧
      (x.back = false → Tab.get none t.svc.redirect (tenant s m b) = some (x.tdie, x.tblock)) ∧
      (x.back = true → Tab.get none t.svc.redirect (4096 * x.tdie + x.tblock) = none))) ∧
    (∀ x, v.moves = [x] → x.die = m → x.block = b → x.switched = true →
      (x.acks.erase a ≠ [] → exec (.homeSwitchAck m b a) s = .next { s with svc := { v with moves := [{ x with acks := x.acks.erase a }] } }) ∧
      (x.acks.erase a = [] → v.goingOffline = none → v.comingOnline = none →
        exec (.homeSwitchAck m b a) s = .next { s with svc := { v with moves := [], moved := v.moved + 1, busy := false, result := 0 } })) ∧
    (∀ old, tm < 32 → tb < 32 → s.pkg.cfg.cdie[tm]? = some old → tb ∉ s.pkg.cfg.cdie →
      (old < 32 → (∀ g ∈ allGroups s, g.die ≠ tm) → Claims.goes (.vdieRemap tm tb) s (fun t =>
        t.pkg.cfg.cdie[tm]? = some tb ∧ t.pkg.fencedC.getLsbD old = true ∧ t.pkg.relC.getLsbD old = false ∧
        (t.pkg.ready.cdie.getLsbD tm = true ↔ s.pkg.relC.getLsbD tb = true ∧ s.pkg.cfg.cfence.getLsbD tb = false ∧
          s.pkg.fencedC.getLsbD tb = false ∧ (.cores, tb) ∉ s.pkg.late) ∧
        ∀ y, memByte t y = memByte s y)) ∧
      ((∃ g ∈ allGroups s, g.die = tm) → (∀ y ∈ s.pkg.remaps, y.1 ≠ tm) → exec (.vdieRemap tm tb) s =
        .next { s with pkg := { s.pkg with remaps := s.pkg.remaps ++ [(tm, tb)] } })) ∧
    (m < 16 → b < 16 → b ∉ s.pkg.cfg.mdie → v.offline.getLsbD m = true → holdsBlocks s m = false →
      Claims.goes (.mdieRemap m b) s (fun t => t.pkg.ready.mbase.getLsbD m = false ∧
        t = { s with host := t.host, pkg := { s.pkg with ready := t.pkg.ready, cfg := { s.pkg.cfg with mdie := s.pkg.cfg.mdie.set m b } } }))

/-! ## Events: coherence (08 R200-R212) -/

/-- The slice of a die (08 R203-R207): a read is served or forwarded to the L1 that owns the line; a request for
ownership waits for one acknowledgement of each other holder and then makes the requester the only one, modified;
behind a request in progress both wait. A request engine may ask only for a line that a COPY of it has still to write,
with fewer than 256 lines owned; recalled, it answers, also where it has given the line up meanwhile. Notices, writebacks,
evictions and pin releases change the line's entries so. No event of a slice changes a byte of memory, or anything but the caches and what DRAM holds of their lines. -/
def Obligations.SliceEvents : Prop :=
  ∀ (s : State) (die core line o agent : Nat), paRegion (128 * line) = 0 →
    let x := l2Get s die line
    let at_ (t : State) : L2Line := l2Get t die line
    let l1 (t : State) (k : Nat) : Option L1State := l1Get t die k line
    let alone : Prop := x.txn = none ∧ x.fwd = none ∧ x.queue = []
    let grantable : Prop := x.dstate = .e ∨ x.dstate = .m ∨ takeFree s die line = true
    let owned (t : State) (a : Nat) : Prop :=
      (at_ t).dstate = .m ∧ (at_ t).owner = some a ∧ (at_ t).ptrs = [] ∧ (at_ t).txn = none ∧ (a < 32 → l1 t a = some .m)
    let gone (t : State) : Prop := (at_ t).dstate = .i ∧ ∀ k, l1 t k = none
    let roomy : Prop := ∀ y, l1Victim s die core line = some y → y.st = .s ∨ y.st = .e ∨ (l2Get s die y.line).fwd = none
    let mayAsk : Prop := if agent < 32 then quarterOk s die agent line = true
      else (copyOwning s none die agent line).isSome = true ∧
        s.coh.l2.countP (fun y => y.die == die && y.owner == some agent) < 256
    x.dstate ≠ .i →
    (core < 32 → quarterOk s die core line = true → l1 s core = none →
      (alone → x.owner = some o → o < 32 → Claims.goes (.sliceReadRequest die core line) s (fun t =>
        Claims.onlyCaches s t ∧ at_ t = { x with fwd := some core })) ∧
      (alone → x.owner = none → holders x core = [] → x.dstate = .e ∨ x.dstate = .m →
        Claims.goes (.sliceReadRequest die core line) s (fun t =>
          Claims.onlyCaches s t ∧ l1 t core = some .e ∧ (at_ t).owner = some core)) ∧
      (roomy → alone → x.owner = none → ¬(holders x core = [] ∧ (x.dstate = .e ∨ x.dstate = .m)) →
        Claims.goes (.sliceReadRequest die core line) s (fun t =>
          Claims.onlyCaches s t ∧ l1 t core = some .s ∧ (at_ t).owner = none)) ∧
      (x.txn ≠ none ∨ x.fwd ≠ none ∨ x.queue ≠ [] → Claims.goes (.sliceReadRequest die core line) s (fun t =>
        Claims.onlyCaches s t ∧ at_ t = { x with queue := x.queue ++ [(core, false)] }))) ∧
    (roomy → x.fwd = some core → x.queue = [] → x.owner = some o → o < 32 → o ≠ core →
      (l1 s o = some .e → Claims.goes (.forward die line) s (fun t => Claims.onlyCaches s t ∧ l1 t core = some .s ∧
        l1 t o = some .s ∧ (at_ t).owner = none ∧ (at_ t).fwd = none)) ∧
      (l1 s o = some .m → Claims.goes (.forward die line) s (fun t => Claims.onlyCaches s t ∧ l1 t core = some .s ∧
        l1 t o = some .o ∧ (at_ t).owner = some o ∧ (at_ t).fwd = none))) ∧
    (agent < 64 → mayAsk →
      (alone → x.pins = 0 → grantable → holders x agent = [] → Claims.goes (.sliceOwnershipRequest die agent line) s (fun t =>
        Claims.onlyCaches s t ∧ owned t agent)) ∧
      (alone → x.pins = 0 → grantable → holders x agent ≠ [] → Claims.goes (.sliceOwnershipRequest die agent line) s (fun t =>
        Claims.onlyCaches s t ∧ at_ t = { x with txn := some { agent := agent, targets := holders x agent, sent := 0
                                                               expect := (holders x agent).length, arrived := 0, evict := false } })) ∧
      (x.txn ≠ none ∨ x.fwd ≠ none ∨ x.queue ≠ [] → Claims.goes (.sliceOwnershipRequest die agent line) s (fun t =>
        Claims.onlyCaches s t ∧ at_ t = { x with queue := x.queue ++ [(agent, true)] }))) ∧
    (x.txn = none → x.pins = 0 →
      (holders x 99 = [] → Claims.goes (.l2Eviction die line) s (fun t => Claims.onlyCaches s t ∧ gone t)) ∧
      (holders x 99 ≠ [] → Claims.goes (.l2Eviction die line) s (fun t => Claims.onlyCaches s t ∧
        at_ t = { x with txn := some { agent := 99, targets := holders x 99, sent := 0, expect := (holders x 99).length
                                       arrived := 0, evict := true } }))) ∧
    (∀ y : Txn, x.txn = some y →
      (agent ∈ y.targets → x.pins = 0 → agent < 32 → Claims.goes (.invalidation die agent line) s (fun t =>
        Claims.onlyCaches s t ∧ l1 t agent = none ∧
        (at_ t).txn = some { y with targets := y.targets.erase agent, sent := y.sent + 1 })) ∧
      (0 < y.sent → y.arrived + 1 ≠ y.expect → Claims.goes (.invalidationAck die line) s (fun t =>
        Claims.onlyCaches s t ∧ (at_ t).txn = some { y with sent := y.sent - 1, arrived := y.arrived + 1 })) ∧
      (0 < y.sent → y.arrived + 1 = y.expect → x.fwd = none → x.queue = [] → y.evict = true ∨ grantable →
        Claims.goes (.invalidationAck die line) s (fun t =>
          Claims.onlyCaches s t ∧ if y.evict = true then gone t else owned t y.agent))) ∧
    (x.txn = none → l1 s core = some .s ∨ l1 s core = some .e → Claims.goes (.evictionNotice die core line) s (fun t =>
      Claims.onlyCaches s t ∧ l1 t core = none ∧ (at_ t).ptrs = x.ptrs.erase core ∧ (at_ t).owner ≠ some core)) ∧
    (x.fwd = none → l1 s core = some .m ∨ l1 s core = some .o → Claims.goes (.l1Writeback die core line) s (fun t =>
      Claims.onlyCaches s t ∧ l1 t core = none ∧ (at_ t).owner ≠ some core)) ∧
    (x.owner = some (32 + core) → copyOwning s none die (32 + core) line = none → x.queue = [] → (∀ p ∈ s.ops, p.fault = none) →
      Claims.goes (.engineRecall die line) s (fun t => Claims.onlyCaches s t ∧ (at_ t).owner = none ∧
        ∀ y : Txn, x.txn = some y → (32 + core) ∈ y.targets →
          (at_ t).txn = some { y with targets := y.targets.erase (32 + core), sent := y.sent + 1 })) ∧
    (∀ y : Txn, engineOwns x = false → x.txn = some y → y.targets.find? (fun a => decide (32 ≤ a)) = some agent →
      Claims.goes (.engineRecall die line) s (fun t => Claims.onlyCaches s t ∧
        at_ t = { x with txn := some { y with targets := y.targets.erase agent, sent := y.sent + 1 } })) ∧
    ((fetchHeld s die).count line < x.pins → x.queue = [] → Claims.goes (.pinRelease die line) s (fun t =>
      Claims.onlyCaches s t ∧ at_ t = { x with pins := x.pins - 1 }))

/-- The home of this module's lines (08 R209, R210): a read of a line that no one holds grants it alone, and of one
that a die holds modified leaves it owned there, the L1 that owns it answering as to any reader; ownership, once every other die can give the line up, invalidates it
there and wakes the line's monitors; an eviction or writeback gives the line back, DRAM then holding its newest bytes;
another module's proxy is served the same way, at the storage that the line's block then has (R214), and the bytes that it
writes or gives back arrive with the sectors that it flags poisoned; a line that it holds in X is served to no die before
it has given it back. -/
def Obligations.HomeEvents : Prop :=
  ∀ (s : State) (d o line m : Nat) (bytes : List Byte) (p : BitVec 4), d < 32 → o < 32 → o ≠ d →
    paRegion (128 * line) = 0 → paModule (128 * line) = s.fab.module →
    let e := homeGet s line
    let at_ (t : State) (k : Nat) : DState := (l2Get t k line).dstate
    let home (t : State) (h : HState) (a : Nat) : Prop := (homeGet t line).hstate = h ∧ (homeGet t line).owner = some a
    let unheld : Prop := e.hstate = .i ∧ e.sharers = 0 ∧ e.mods = [] ∧ e.overflow = false
    let woken (t : State) : Prop := ∀ x ∈ t.coh.monitors, x.line = line → x.woken = true
    let owner (t : State) (a : Nat) : Prop := home t .x a ∧ (∀ k, k < 32 → k ≠ a → at_ t k = .i) ∧ woken t
    let arrives (t : State) : Prop := t = { s with coh := t.coh, mem := t.mem } ∧
      (∀ a, memByte t a = if 128 * line ≤ a ∧ a < 128 * line + min 128 bytes.length then bytes.getD (a - 128 * line) 0 else memByte s a) ∧
      ∀ i, i < 4 → p.getLsbD i = true → sectorDev t (4 * line + i) = 0xFFFF
    (at_ s d = .i → readFreeFor s d line = true → roomFree s d 0 line = true →
      (unheld → Claims.goes (.homeRead d line) s (fun t => Claims.onlyCaches s t ∧ home t .x d ∧ at_ t d = .e)) ∧
      (e.hstate = .x → e.owner = some o → at_ s o = .m → Claims.goes (.homeRead d line) s (fun t => Claims.onlyCaches s t ∧
        home t .o o ∧ (homeGet t line).sharers.getLsbD d = true ∧ at_ t o = .o ∧ at_ t d = .s ∧
        ∀ k, k < 32 → (l2Get s o line).owner = some k →
          (l1Get s o k line = some .e → l1Get t o k line = some .s ∧ (l2Get t o line).owner = none) ∧
          (l1Get s o k line = some .m → l1Get t o k line = some .o ∧ (l2Get t o line).owner = some k)))) ∧
    (e.hstate = .x → e.owner = some (64 + m) → exec (.homeRead d line) s = .next s ∧ exec (.homeOwnership d line) s = .next s) ∧
    (takeFree s d line = true →
      (lineBusy (l2Get s d line) = false → roomFree s d 0 line = true → Claims.goes (.homeOwnership d line) s (fun t =>
        Claims.onlyCaches s t ∧ owner t d ∧ at_ t d = .m)) ∧
      (at_ s d = .s ∨ at_ s d = .o → Claims.goes (.homeUpgrade d line) s (fun t =>
        Claims.onlyCaches s t ∧ owner t d ∧ at_ t d = .m))) ∧
    (mayLeave s d line = true → at_ s d = .s ∨ at_ s d = .e →
      (e.hstate = .s → e.sharers = BitVec.twoPow 32 d → e.mods = [] → e.overflow = false →
        Claims.goes (.homeCleanEviction d line) s (fun t => Claims.onlyCaches s t ∧ (homeGet t line).hstate = .i ∧ at_ t d = .i)) ∧
      (e.hstate = .o → Claims.goes (.homeCleanEviction d line) s (fun t => Claims.onlyCaches s t ∧
        (homeGet t line).hstate = .o ∧ (homeGet t line).sharers.getLsbD d = false ∧ at_ t d = .i))) ∧
    (mayLeave s d line = true → at_ s d = .m ∨ at_ s d = .o → e.owner = some d → Claims.goes (.homeWriteback d line) s (fun t =>
      Claims.onlyCaches s t ∧ (homeGet t line).hstate = (if e.hstate = .o ∧ anySharer e = true then .s else .i) ∧ at_ t d = .i ∧
      Tab.get [] t.mem.stale line = [] ∧ woken t)) ∧
    (storageLine s line = line →
      (unheld → readFreeFor s (64 + m) line = true → Claims.goes (.proxyRequest m .read line bytes) s (fun t =>
        Claims.onlyCaches s t ∧ home t .x (64 + m))) ∧
      (takeFree s (64 + m) line = true → Claims.goes (.proxyRequest m .own line bytes) s (fun t =>
        Claims.onlyCaches s t ∧ owner t (64 + m))) ∧
      (takeFree s nobody line = true → Claims.goes (.proxyRequest m (.write p) line bytes) s (fun t =>
        arrives t ∧ woken t ∧ ∀ k, k < 32 → at_ t k = .i)) ∧
      (e.hstate = .x → e.owner = some (64 + m) →
        (bytes = [] → Claims.goes (.proxyRequest m (.evict p) line bytes) s (fun t =>
          Claims.onlyCaches s t ∧ (homeGet t line).owner = none)) ∧
        (bytes ≠ [] → Claims.goes (.proxyRequest m (.evict p) line bytes) s (fun t => arrives t ∧ woken t ∧ (homeGet t line).owner = none))))

/-- A chain of the group in focus reads the entry that it has reached once, whole: STOP ends the chain; an entry that is
malformed, or does not lie below the local size, ends it with one fault entry in slot 0; LOOP and IF choose the entry
that follows; COPY joins its produce key, or is done at once where it copies no byte; an IF or COPY whose consume key is not
performed waits, with the entry that it read. Of two chains of a core that are ready the first in turn issues, and the other is
then first. A COPY performed has copied its bytes and nothing else; an arrival counted takes one from the pending arrivals;
an ENQ no longer open starts its chain. Which entries are malformed, and
that chains that are ready come in the order of their start, is the model's reading (log 33). -/
def Obligations.EngineWalksAndCopies : Prop :=
  ∀ (s : State), Claims.ownFocus s → (∀ p ∈ s.ops, p.fault = none) →
    let own := groupHandle s.g
    (∀ (c : Chain), s.chains = [c] → c.owner = s.w.handle → c.group = own → c.holding = false → c.loops = [] → c.waits = none →
      s.g.saveDue = false → (c.read = none → entryTorn s c = false) →
      let bs := c.read.getD ((List.range 64).map (fun i => locByte s.g (c.next + i)))
      let entry := entry64 bs c.next []
      let goesTo (n : Nat) (ls : List LoopFrame) : Prop :=
        exec (.engineEntryIssue c.id) s = .next { s with chains := [{ c with next := n, loops := ls, read := none }] }
      let waits : Prop := exec (.engineEntryIssue c.id) s = .next { s with chains := [{ c with read := some bs }] }
      let met (k : Nat) : Bool := allPerformed s s.w c.scope (membersOf s s.w k)
      let faults (cause detail : Nat) : Prop := Claims.goes (.engineEntryIssue c.id) s (fun t =>
        t.chains = [] ∧ Claims.keepsRegisters s t ∧ Claims.keepsMemory s t ∧ ∃ e : FaultEntry,
          t.w.keys.faults = s.w.keys.faults ++ [e] ∧ e.cause = cause ∧ e.detail = detail ∧ e.addr = c.next ∧ e.slots.getLsbD 0 = true)
      (c.next + 64 ≤ s.g.desc.lsize →
        (bs = 6 :: List.replicate 63 0 → exec (.engineEntryIssue c.id) s = .next { s with chains := [] }) ∧
        (entry = none → s.w.keys.faults.length < 4 → faults 0x01 1) ∧
        (∀ n body, entry = some (.loop n body) →
          (n = 0 → goesTo (c.next + 64 * (1 + body)) []) ∧
          (n ≠ 0 → goesTo (c.next + 64)
            [{ start := c.next + 64, stop := c.next + 64 * (1 + body), left := n, iter := 0 }])) ∧
        (∀ rel k skip off v, entry = some (.cond rel k skip off v) → off + 4 ≤ s.g.desc.lsize → chainWave s c = s.w →
          let w := numOf ((List.range 4).map (fun i => locByte s.g (off + i)))
          let yes : Bool := if rel = 0 then w == v else if rel = 1 then w != v else if rel = 2 then decide (w < v) else decide (v ≤ w)
          if met k = true then goesTo (if yes then c.next + 64 else c.next + 64 * (1 + skip)) [] else waits) ∧
        (∀ j ss ds p k bar, entry = some (.copy j ss ds p k bar) → j.srcLocal = true → j.dstLocal = true → j.report = none →
          memberRoom s s.w p = true → chainWave s c = s.w →
          (met k = false → waits) ∧ (met k = true → j.len = 0 → goesTo (c.next + 64) []) ∧
          (met k = true → j.len ≠ 0 → Claims.goes (.engineEntryIssue c.id) s (fun t =>
            Claims.keepsRegisters s t ∧ Claims.keepsMemory s t ∧ t.chains = [{ c with next := c.next + 64, read := none }] ∧
            ∃ o : Op, t.ops = s.ops ++ [o] ∧
              o.id = s.nextOp ∧ o.tag = some { handle := s.w.handle, slot := p, gen := Tab.get 0 s.w.keys.gen p } ∧
              o.kind = .copy { j with ctx := c.ctx, die := c.die, core := c.core, group := own })))) ∧
      (s.g.desc.lsize < c.next + 64 → s.w.keys.faults.length < 4 → faults 0x08 6)) ∧
    (∀ (c d : Chain), s.chains = [c, d] → c.id ≠ d.id → c.die = d.die → c.core = d.core → chainRuns s c = true →
      chainReady s c = true → chainReady s d = true →
      exec (.engineEntryIssue d.id) s = .next s ∧
      Claims.goes (.engineEntryIssue c.id) s (fun t => t.chains.head?.map (·.id) = some d.id)) ∧
    (∀ (o : Op) head die core, findOp s o.id = some o → o.kind = .enq head die core → s.chains = [] →
      waitsAt s (max o.scope 1) o = true → (ctxGet s (handleCtx o.owner)).destroying = false →
      Claims.goes (.engineEntryIssue o.id) s (fun t => t.ops = s.ops.filter (fun p => p.id != o.id) ∧ Claims.keepsRegisters s t ∧
        Claims.keepsMemory s t ∧ t.w.pc = s.w.pc ∧ t.w.status = s.w.status ∧ t.nextOp = s.nextOp + 1 ∧ t.chains = [
          { id := o.id, owner := o.owner, group := groupOf o.owner, ctx := handleCtx o.owner, die := die, core := core
            scope := o.scope, next := head, loops := [], holding := false, waits := none, start := s.nextOp }])) ∧
    (∀ (o : Op) (j : CopyJob), findOp s o.id = some o → o.kind = .copy j → j.srcLocal = true → j.dstLocal = true → j.report = none →
      j.rows = 1 → j.written = [] → j.bad = none → j.lost = [] → j.group = own → o.done ≠ 5 → s.g.tbars = [] → s.g.desc.lsize ≤ 2 ^ 19 → j.src + j.len ≤ s.g.desc.lsize →
      j.dst + j.len ≤ s.g.desc.lsize → j.src + j.len ≤ j.dst ∨ j.dst + j.len ≤ j.src → Claims.goes (.copyPerformed o.id) s (fun t =>
        Claims.leavesFlight s t o ∧ Claims.keepsRegisters s t ∧ (∀ a, memByte t a = memByte s a) ∧
        ∀ a, locByte t.g a = if j.dst ≤ a ∧ a < j.dst + j.len then locByte s.g (j.src + (a - j.dst)) else locByte s.g a)) ∧
    (∀ (o : Op) off phase reload arrivals sectors expected, findOp s o.id = some o → o.kind = .arrive own off none →
      waitsDone s o = true → s.held = [] → off + 16 ≤ s.g.desc.lsize →
      Claims.barrierIs s.g off phase reload (arrivals + 1) sectors expected 0 → Claims.goes (.arrivalCounted o.id) s (fun t =>
        Claims.leavesFlight s t o ∧ Claims.keepsRegisters s t ∧ Claims.storesLocal s t off 16 ∧
        if arrivals = 0 ∧ sectors = 0 then Claims.barrierIs t.g off ((phase + 1) % 16) reload reload expected expected 0
        else Claims.barrierIs t.g off phase reload arrivals sectors expected 0))

/-! ## Events: slots, claims and ejected lanes (04 R103-R106; 05 R146-R148; 06 R155-R168) -/

/-- A swap of an active wave that waits brings in the ready pending wave that entered earliest, a forced one the pending
wave that has been ready longest; which of several waiting active waves goes is the model's choice (log 42); a free place goes to the pending wave that entered earliest; a stalled claim is met
with units that read zero and the wave goes on; with every wave of a slot stalled the earliest claim traps with
CLAIMLOCK. A give, and a claim that its pool can meet with none stalled, go on at once with that many units fewer or
more. -/
def Obligations.SlotSwapsAndClaims : Prop :=
  ∀ (s : State) (die core slot : Nat),
    let x := slotNow s die core slot
    let sets (t : State) (a p : List (BitVec 64)) : Prop :=
      t = { s with slots := t.slots } ∧ (slotGet t die core slot).active = a ∧ (slotGet t die core slot).pending = p
    ((∀ h ∈ x.active, h ∉ x.pending) →
      (∀ a p, fillDue s x = false → x.active.find? (eligible s) = some a → x.pending.find? (readyWave s) = some p →
        Claims.goes (.swapEligible die core slot) s (fun t => sets t (x.active.erase a ++ [p]) (x.pending.erase p ++ [a]))) ∧
      (∀ a as p, fillDue s x = false → x.active = a :: as →
        (x.ready ++ x.pending).find? (fun h => x.pending.contains h && readyWave s h) = some p →
        Claims.goes (.forcedSwap die core slot) s (fun t => sets t (as ++ [p]) (x.pending.erase p ++ [a]))) ∧
      (∀ p ps, x.pending = p :: ps → rejoinHeld s p = false → x.active.length < 8 →
        Claims.goes (.activeSetFill die core slot) s (fun t => sets t (x.active ++ [p]) ps))) ∧
    (∀ n : BitVec 16, someNonHelper s = true → s.w.trap.on = false → s.g.claims = [] → s.w.ejected = [] → n.toNat ≤ 16 →
      let held (t : State) (v : Bool) : Nat := heldUnits t.w v
      let pool (t : State) (v : Bool) : Nat := poolGet t.g v (s.w.idx % 4)
      let goesOn (t : State) : Prop := t.w.pc = s.w.pc + 4 ∧ t.w.status = s.w.status ∧ Claims.keepsMemory s t
      (n.toNat ≤ held s true → Claims.goes (.vgive n) s (fun t =>
        goesOn t ∧ held t true + n.toNat = held s true ∧ pool t true = pool s true + n.toNat)) ∧
      (n.toNat ≤ held s false → Claims.goes (.xgive n) s (fun t =>
        goesOn t ∧ held t false + n.toNat = held s false ∧ pool t false = pool s false + n.toNat)) ∧
      (held s true + n.toNat ≤ 16 → n.toNat ≤ pool s true → Claims.goes (.vclaim n) s (fun t =>
        goesOn t ∧ held t true = held s true + n.toNat ∧ pool t true + n.toNat = pool s true)) ∧
      (held s false + n.toNat ≤ 16 → n.toNat ≤ pool s false → Claims.goes (.xclaim n) s (fun t =>
        goesOn t ∧ held t false = held s false + n.toNat ∧ pool t false + n.toNat = pool s false))) ∧
    (∀ c : Claim, Claims.ownFocus s → s.g.peers = [] → s.g.claims = [c] → handleOf s.g c.wave = s.w.handle → c.wave % 4 = slot →
      (c.n ≤ poolGet s.g c.vector slot → Claims.goes .claimGrant s (fun t =>
        t.w.status = .ready ∧ t.w.pc = s.w.pc + 4 ∧ t.g.claims = [] ∧ Claims.keepsMemory s t ∧
        poolGet t.g c.vector slot = poolGet s.g c.vector slot - c.n ∧ heldUnits t.w c.vector = heldUnits s.w c.vector + c.n ∧
        ∀ n l, vget t n l =
          if c.vector = true ∧ 8 * s.w.vblocks ≤ n ∧ ¬(s.w.trap.on = true ∧ 112 ≤ n) then 0 else vget s n l)) ∧
      (poolGet s.g c.vector slot < c.n → s.w.status = .waiting .claim → s.w.idx = c.wave → s.lane = none →
        s.w.trap.on = false → (ctxGet s s.g.ctx).trapvec ≠ 0 → Claims.goes (.claimlock slot) s (fun t =>
          t.w.trap.on = true ∧ t.w.trap.cause = 0x06 ∧ t.w.trap.pc = s.w.pc ∧ t.g.claims = [] ∧ t.w.vblocks = s.w.vblocks ∧
          t.w.tiles = s.w.tiles)))

/-- A started thread shows as started; with its one ejected lane at the join's address the wave collects its window
and goes on under the join's mask less exited lanes; a lane that its next word recalls, and one late at the hard
limit, enters the stack directly above its join with its window written back, once the wave's stack area can take a
batch; one whose recall overflowed stays on its thread, whatever asks for it; the soft limit moves the wave to its slot's
pending set. Which lanes the hard limit recalls is the model's reading (log 27). -/
def Obligations.EjectedLaneEvents : Prop :=
  ∀ (s : State) (e : EjLane) (j : Entry), s.w.ejected = [e] → s.w.trap.on = false → s.w.stack = [j] → s.w.batches = 0 →
    j.kind = .join → e.lane < 96 → e.depth = 0 → s.ops = [] → areaReady s = true →
    let window (t : State) : Prop := ∀ n, n < 8 * e.live → vget t n e.lane = Tab.get 0 e.win n
    let entry : Entry := { kind := .recall, mask := BitVec.twoPow 96 e.lane, pc := e.pc, rpc := some e.rpc, live := 0, eject := false }
    let recalled (t : State) : Prop := t.w.ejected = [] ∧ t.w.stack = [entry, j] ∧ t.w.pc = s.w.pc ∧ window t ∧ Claims.keepsMemory s t
    let atAddress : Prop := j.rpc = some s.w.pc ∧ (s.w.status = .ready ∨ s.w.status = .waiting .rejoin)
    exec (.ejectThreadStart e.lane) s = .next { s with w := { s.w with ejected := [{ e with started := true }] } } ∧
    (atAddress → e.pc = e.rpc → e.flag = [] → s.w.exitPop = false → Claims.goes .laneRejoin s (fun t =>
      t.w.ejected = [] ∧ t.w.stack = [] ∧ t.w.pc = s.w.pc ∧ t.w.status = .ready ∧ em t = j.mask &&& ~~~s.w.gone ∧ window t ∧
      Claims.keepsMemory s t)) ∧
    (e.stuck = true → exec (.laneRecall e.lane) s = .next s ∧ exec .rejoinHardLimit s = .next s) ∧
    (e.started = true → e.stuck = false → e.pc ≠ e.rpc → laneNext s e = .recalls → Claims.goes (.laneRecall e.lane) s recalled) ∧
    (atAddress → e.stuck = false → e.pc ≠ e.rpc → Claims.goes .rejoinHardLimit s recalled) ∧
    (atAddress → Claims.goes .rejoinSoftLimit s (fun t => t.w = { s.w with rejoinSoft := true } ∧ Claims.keepsMemory s t ∧
      ∃ x ∈ t.slots, x.die = s.g.die ∧ x.core = s.g.core ∧ x.slot = s.w.idx % 4 ∧ s.w.handle ∈ x.pending))

/-! ## The machine as a whole -/

/-- After reset every die is held in reset, no wave is resident, memory lists nothing in canonical form, and the
registers hold their Reset column (01 R14, R25; 02 Table 2-2; 03 R67): INTLV 0xAAAAAAAA, every Guyline link enabled,
every reduction timeout 1,000, no context in use. That the registers and masks of no wave read zero is the model's choice (log 2). -/
def Obligations.ResetHoldsEveryDie : Prop :=
  let s := State.reset
  s.pkg.relC = 0 ∧ s.pkg.relM = 0 ∧ s.pkg.relIo = 0 ∧ s.pkg.ready = {} ∧ s.w.status = .idle ∧ s.groups = [] ∧ s.ops = [] ∧
  s.mem.cells = [] ∧ s.mem.dev = [] ∧ Memory.wf s.mem = true ∧ s.svc.intlv = 0xAAAAAAAA ∧ s.fab.enable = 0x3FFFF ∧
  s.fab.err = 0 ∧ s.fab.valid = false ∧ (∀ n, redGet s n = { timeout := 1000 }) ∧ (∀ c, (ctxGet s c).state = 0) ∧
  s.time = 0 ∧ s.inputs = [] ∧ (∀ n, sget s n = 0) ∧ (∀ n l, vget s n l = 0) ∧ (∀ g, 0 < g → pget s g = 0) ∧ em s = 0

/-- With no input, a wave in focus whose turn it is (04 R104), no trap or reconvergence due, and its pc in the clause
that runs, a step is exec of the instruction that the word at the pc decodes to, once that instruction may issue (13
R311-R313; 10 R249, R250); after it the wave is the youngest of its slot, unless a fault of it still waits, walks that ended in a
fault have read their nodes and free places of slots are filled, and nothing else is added. An event that an input names is
taken as exec of it. What reaches a line that cannot be served yet has not taken place, the model's order (log 12). A module
without power answers only POWER_ON. -/
def Obligations.StepRunsTheDecodedInstruction : Prop :=
  (∀ (s : State) (c : Clause) (k : Nat) (word : Word) (i : Instr),
    let after (t : State) : State := if t.w.status = .waiting .interlock then t else noteIssue s.w.handle t
    s.inputs = [] → s.pkg.power = true → turnFree s = true → s.w.status = .ready → s.w.stackDue = none → s.w.winTraps = [] →
    curRpc s.w ≠ some s.w.pc → s.w.clause = some c → (s.w.pc - c.base).toNat / 4 = k + 1 → k < headerLen c.header →
    c.body[k]? = some word → decode word = .ok i → canIssue s i = true →
    (openOps s = [] → ∀ t, exec i { s with w := { s.w with readsSince := [] } } = .next t → stalls (after t) = false →
      step s = .next (afterTurn (endWalks (after t)))) ∧
    (openOps s ≠ [] → ∀ t u, exec i (noteReads s i) = .next t →
      u = after (if tookTrap s t = true then { s with w := { s.w with status := .waiting .interlock } } else t) → stalls u = false →
      step s = .next (afterTurn (endWalks u))) ∧
    (∀ f, exec i (noteReads s i) = .fault f → step s = .fault f) ∧
    (∀ r, exec i (noteReads s i) = .refused r → step s = .refused r)) ∧
  (∀ (s : State) (rest : List Input) (i : Instr), s.inputs = .event i :: rest → encode i = none →
    (∀ w, i ≠ .unassignedEncoding w) →
    (s.pkg.power = true → ∀ t, exec i { s with inputs := rest } = .next t →
      (stalls t = false → step s = .next (afterTurn (endWalks t))) ∧
      (stalls t = true → step s = .next (afterTurn { s with inputs := rest }))) ∧
    (s.pkg.power = false → i ≠ .powerOn → step s = .fault .noPower)) ∧
  (∀ s : State, s.inputs = [] → s.pkg.power = false → step s = .fault .noPower) ∧
  (∀ (s : State) (h : BitVec 64), s.xlt.ended = [] →
    (∃ x, afterTurn (endWalks (noteIssue h s)) = { s with slots := x }) ∧ stalls s = s.coh.stalled)

/-- Words written out bit by bit from the encoding tables decode to the instructions that they stand for (13 Tables
13-5 to 13-9; 14 Table 14-8; 15 Tables 15-1, 15-3; 16 Tables 16-1, 16-5). -/
def Obligations.WordsDecodeAsTheTablesSay : Prop :=
  decode 0x00800000 = .ok .nop ∧ decode 0x01000000 = .ok .exit ∧ decode 0x09000000 = .ok .tret ∧
  decode 0x00000000 = .error .unassigned ∧ decode 0x00800001 = .error .reservedField ∧
  decode 0x0402000E = .ok (.br false 2 14) ∧ decode 0x03000005 = .ok (.trap 5) ∧
  decode 0x0A501000 = .ok (.sysr 40 0x10) ∧ decode 0x0A8016AA = .ok (.sysw 0x16 (.s 42)) ∧
  decode 0x1C0101C1 = .ok (.vadd 1 (.v 1) (.nat 1)) ∧ decode 0x2100E0C2 = .ok (.vshl 0 (.idx 0) (.nat 2)) ∧
  decode 0x40800312 = .ok (.kjoin 3 1 2) ∧ decode 0x46008401 = .ok (.barrive (.s 4) 1) ∧
  decode 0x80080010 = .ok (.ld 1 0 0 false 1 0) ∧ decode 0x84080001 = .ok (.st 1 0 0 false 0 1) ∧
  decode 0xC8202450 = .ok (.atomCas 4 2 1 false 5 0) ∧ decode 0x4A840907 = .ok (.xmovc 4 false false 2 1 7) ∧
  decode 0xDA900000 = .ok (.xzero 2) ∧ decode 0xD9900040 = .ok (.xscale 2 4) ∧
  decode 0xDA288220 = .ok (.xcvt 5 2 false 1 2) ∧ decode 0xDB180052 = .ok (.tld 3 false false 5 2) ∧
  decode 0xDB98C052 = .ok (.tst 3 true true 5 2) ∧ decode 0xDC000064 = .ok (.sscan 6 4)

/-- Decoding the encoding of a well-formed instruction gives it back, with every operand at every value that the
encoding admits. -/
def Obligations.DecodeOfEncodeIsIdentity : Prop :=
  ∀ (i : Instr) (w : Word), i.wf = true → encode i = some w → decode w = .ok i

/-- A word that decodes is the encoding of the instruction it decodes to, so no two words decode to one instruction
and no bit of a word is dropped. -/
def Obligations.EncodeOfDecodeIsIdentity : Prop :=
  ∀ (i : Instr) (w : Word), decode w = .ok i → encode i = some w

/-- Every step keeps memory in its canonical form: addresses strictly rising, and no entry equal to what an unlisted
address reads as. -/
def Obligations.StepsKeepMemoryCanonical : Prop :=
  ∀ (s t : State), Memory.wf s.mem = true → step s = .next t → Memory.wf t.mem = true

/-- An instruction word with an all-zero mask only goes on to the next word: it raises no exception, sets no flag,
joins no key, waits on no consume and advances no random state, unless it is one of the wave-level instructions of
Table 6-7. With no lane that is no helper lane, an instruction that acts once for the wave only goes on (15 R390,
R399). -/
def Obligations.MaskedInstructionsOnlyGoOn : Prop :=
  (∀ (s : State) (i : Instr) (w : Word), em s = 0 → encode i = some w → Claims.waveLevel i = false →
     exec i s = .next (Claims.goesOn s)) ∧
  (∀ (s : State) (i : Instr) (d : BitVec 6) (a b : Src) (j k l : BitVec 4), someNonHelper s = false →
     i ∈ [Instr.kclr j, .kjoin j k l, .kfork j k, .kwait j, .fence, .karr j, .kstat d j, .binit a b, .bexpect a b,
       .barrive a j, .bwait a b, .btest d a b, .yieldB d false a b, .yieldB d true a b] →
     exec i s = .next (Claims.goesOn s))
end

