-- ==== Sys2Proof/Laws/State.lean ====
section
/-!
SUPPORT. What each update of the state leaves alone and what it sets, field by field, so that no proof unfolds a record
update.
-/

namespace Sys2Proof.Machine

open Sys2Proof

/-! ## Going on, transferring control, waiting -/

@[simp] theorem advance_w_pc (s : State) : (advance s).w.pc = s.w.pc + 4 := rfl
@[simp] theorem advance_w_idx (s : State) : (advance s).w.idx = s.w.idx := rfl
@[simp] theorem advance_w_handle (s : State) : (advance s).w.handle = s.w.handle := rfl
@[simp] theorem advance_w_name (s : State) : (advance s).w.name = s.w.name := rfl
@[simp] theorem advance_w_status (s : State) : (advance s).w.status = s.w.status := rfl
@[simp] theorem advance_w_clause (s : State) : (advance s).w.clause = s.w.clause := rfl
@[simp] theorem advance_w_sreg (s : State) : (advance s).w.sreg = s.w.sreg := rfl
@[simp] theorem advance_w_vreg (s : State) : (advance s).w.vreg = s.w.vreg := rfl
@[simp] theorem advance_w_vblocks (s : State) : (advance s).w.vblocks = s.w.vblocks := rfl
@[simp] theorem advance_w_pred (s : State) : (advance s).w.pred = s.w.pred := rfl
@[simp] theorem advance_w_tile (s : State) : (advance s).w.tile = s.w.tile := rfl
@[simp] theorem advance_w_side (s : State) : (advance s).w.side = s.w.side := rfl
@[simp] theorem advance_w_tiles (s : State) : (advance s).w.tiles = s.w.tiles := rfl
@[simp] theorem advance_w_flag (s : State) : (advance s).w.flag = s.w.flag := rfl
@[simp] theorem advance_w_mode (s : State) : (advance s).w.mode = s.w.mode := rfl
@[simp] theorem advance_w_role (s : State) : (advance s).w.role = s.w.role := rfl
@[simp] theorem advance_w_astat (s : State) : (advance s).w.astat = s.w.astat := rfl
@[simp] theorem advance_w_hmask (s : State) : (advance s).w.hmask = s.w.hmask := rfl
@[simp] theorem advance_w_rand (s : State) : (advance s).w.rand = s.w.rand := rfl
@[simp] theorem advance_w_keys (s : State) : (advance s).w.keys = s.w.keys := rfl
@[simp] theorem advance_w_stack (s : State) : (advance s).w.stack = s.w.stack := rfl
@[simp] theorem advance_w_batches (s : State) : (advance s).w.batches = s.w.batches := rfl
@[simp] theorem advance_w_trap (s : State) : (advance s).w.trap = s.w.trap := rfl
@[simp] theorem advance_w_ejected (s : State) : (advance s).w.ejected = s.w.ejected := rfl
@[simp] theorem advance_w_gone (s : State) : (advance s).w.gone = s.w.gone := rfl
@[simp] theorem advance_w_spill (s : State) : (advance s).w.spill = s.w.spill := rfl
@[simp] theorem advance_w_rejoinSoft (s : State) : (advance s).w.rejoinSoft = s.w.rejoinSoft := rfl
@[simp] theorem advance_w_ksendOverdue (s : State) : (advance s).w.ksendOverdue = s.w.ksendOverdue := rfl
@[simp] theorem advance_w_readsSince (s : State) : (advance s).w.readsSince = s.w.readsSince := rfl
@[simp] theorem advance_w_laneFault (s : State) : (advance s).w.laneFault = s.w.laneFault := rfl
@[simp] theorem advance_w_winTraps (s : State) : (advance s).w.winTraps = s.w.winTraps := rfl
@[simp] theorem advance_w_stackDue (s : State) : (advance s).w.stackDue = s.w.stackDue := rfl
@[simp] theorem advance_w_exitPop (s : State) : (advance s).w.exitPop = s.w.exitPop := rfl
@[simp] theorem advance_w_fell (s : State) : (advance s).w.fell = s.w.fell := rfl

@[simp] theorem advance_lane (s : State) : (advance s).lane = s.lane := rfl
@[simp] theorem advance_g (s : State) : (advance s).g = s.g := rfl
@[simp] theorem advance_groups (s : State) : (advance s).groups = s.groups := rfl
@[simp] theorem advance_records (s : State) : (advance s).records = s.records := rfl
@[simp] theorem advance_mem (s : State) : (advance s).mem = s.mem := rfl
@[simp] theorem advance_ops (s : State) : (advance s).ops = s.ops := rfl
@[simp] theorem advance_nextOp (s : State) : (advance s).nextOp = s.nextOp := rfl
@[simp] theorem advance_chains (s : State) : (advance s).chains = s.chains := rfl
@[simp] theorem advance_held (s : State) : (advance s).held = s.held := rfl
@[simp] theorem advance_slots (s : State) : (advance s).slots = s.slots := rfl
@[simp] theorem advance_bivTurn (s : State) : (advance s).bivTurn = s.bivTurn := rfl
@[simp] theorem advance_xlt (s : State) : (advance s).xlt = s.xlt := rfl
@[simp] theorem advance_coh (s : State) : (advance s).coh = s.coh := rfl
@[simp] theorem advance_svc (s : State) : (advance s).svc = s.svc := rfl
@[simp] theorem advance_ctxs (s : State) : (advance s).ctxs = s.ctxs := rfl
@[simp] theorem advance_queues (s : State) : (advance s).queues = s.queues := rfl
@[simp] theorem advance_grids (s : State) : (advance s).grids = s.grids := rfl
@[simp] theorem advance_fab (s : State) : (advance s).fab = s.fab := rfl
@[simp] theorem advance_host (s : State) : (advance s).host = s.host := rfl
@[simp] theorem advance_pkg (s : State) : (advance s).pkg = s.pkg := rfl
@[simp] theorem advance_time (s : State) : (advance s).time = s.time := rfl
@[simp] theorem advance_fresh (s : State) : (advance s).fresh = s.fresh := rfl
@[simp] theorem advance_inputs (s : State) : (advance s).inputs = s.inputs := rfl

@[simp] theorem goto_w_pc (s : State) (pc : Pc) : (goto s pc).w.pc = pc := rfl
@[simp] theorem goto_w_clause (s : State) (pc : Pc) : (goto s pc).w.clause = none := rfl
@[simp] theorem goto_w_idx (s : State) (pc : Pc) : (goto s pc).w.idx = s.w.idx := rfl
@[simp] theorem goto_w_handle (s : State) (pc : Pc) : (goto s pc).w.handle = s.w.handle := rfl
@[simp] theorem goto_w_name (s : State) (pc : Pc) : (goto s pc).w.name = s.w.name := rfl
@[simp] theorem goto_w_status (s : State) (pc : Pc) : (goto s pc).w.status = s.w.status := rfl
@[simp] theorem goto_w_sreg (s : State) (pc : Pc) : (goto s pc).w.sreg = s.w.sreg := rfl
@[simp] theorem goto_w_vreg (s : State) (pc : Pc) : (goto s pc).w.vreg = s.w.vreg := rfl
@[simp] theorem goto_w_vblocks (s : State) (pc : Pc) : (goto s pc).w.vblocks = s.w.vblocks := rfl
@[simp] theorem goto_w_pred (s : State) (pc : Pc) : (goto s pc).w.pred = s.w.pred := rfl
@[simp] theorem goto_w_tile (s : State) (pc : Pc) : (goto s pc).w.tile = s.w.tile := rfl
@[simp] theorem goto_w_side (s : State) (pc : Pc) : (goto s pc).w.side = s.w.side := rfl
@[simp] theorem goto_w_tiles (s : State) (pc : Pc) : (goto s pc).w.tiles = s.w.tiles := rfl
@[simp] theorem goto_w_flag (s : State) (pc : Pc) : (goto s pc).w.flag = s.w.flag := rfl
@[simp] theorem goto_w_mode (s : State) (pc : Pc) : (goto s pc).w.mode = s.w.mode := rfl
@[simp] theorem goto_w_role (s : State) (pc : Pc) : (goto s pc).w.role = s.w.role := rfl
@[simp] theorem goto_w_astat (s : State) (pc : Pc) : (goto s pc).w.astat = s.w.astat := rfl
@[simp] theorem goto_w_hmask (s : State) (pc : Pc) : (goto s pc).w.hmask = s.w.hmask := rfl
@[simp] theorem goto_w_rand (s : State) (pc : Pc) : (goto s pc).w.rand = s.w.rand := rfl
@[simp] theorem goto_w_keys (s : State) (pc : Pc) : (goto s pc).w.keys = s.w.keys := rfl
@[simp] theorem goto_w_stack (s : State) (pc : Pc) : (goto s pc).w.stack = s.w.stack := rfl
@[simp] theorem goto_w_batches (s : State) (pc : Pc) : (goto s pc).w.batches = s.w.batches := rfl
@[simp] theorem goto_w_trap (s : State) (pc : Pc) : (goto s pc).w.trap = s.w.trap := rfl
@[simp] theorem goto_w_ejected (s : State) (pc : Pc) : (goto s pc).w.ejected = s.w.ejected := rfl
@[simp] theorem goto_w_gone (s : State) (pc : Pc) : (goto s pc).w.gone = s.w.gone := rfl
@[simp] theorem goto_w_spill (s : State) (pc : Pc) : (goto s pc).w.spill = s.w.spill := rfl
@[simp] theorem goto_w_rejoinSoft (s : State) (pc : Pc) : (goto s pc).w.rejoinSoft = s.w.rejoinSoft := rfl
@[simp] theorem goto_w_ksendOverdue (s : State) (pc : Pc) : (goto s pc).w.ksendOverdue = s.w.ksendOverdue := rfl
@[simp] theorem goto_w_readsSince (s : State) (pc : Pc) : (goto s pc).w.readsSince = s.w.readsSince := rfl
@[simp] theorem goto_w_laneFault (s : State) (pc : Pc) : (goto s pc).w.laneFault = s.w.laneFault := rfl
@[simp] theorem goto_w_winTraps (s : State) (pc : Pc) : (goto s pc).w.winTraps = s.w.winTraps := rfl
@[simp] theorem goto_w_stackDue (s : State) (pc : Pc) : (goto s pc).w.stackDue = s.w.stackDue := rfl
@[simp] theorem goto_w_exitPop (s : State) (pc : Pc) : (goto s pc).w.exitPop = s.w.exitPop := rfl
@[simp] theorem goto_w_fell (s : State) (pc : Pc) : (goto s pc).w.fell = s.w.fell := rfl

@[simp] theorem goto_lane (s : State) (pc : Pc) : (goto s pc).lane = s.lane := rfl
@[simp] theorem goto_g (s : State) (pc : Pc) : (goto s pc).g = s.g := rfl
@[simp] theorem goto_groups (s : State) (pc : Pc) : (goto s pc).groups = s.groups := rfl
@[simp] theorem goto_records (s : State) (pc : Pc) : (goto s pc).records = s.records := rfl
@[simp] theorem goto_mem (s : State) (pc : Pc) : (goto s pc).mem = s.mem := rfl
@[simp] theorem goto_ops (s : State) (pc : Pc) : (goto s pc).ops = s.ops := rfl
@[simp] theorem goto_nextOp (s : State) (pc : Pc) : (goto s pc).nextOp = s.nextOp := rfl
@[simp] theorem goto_chains (s : State) (pc : Pc) : (goto s pc).chains = s.chains := rfl
@[simp] theorem goto_held (s : State) (pc : Pc) : (goto s pc).held = s.held := rfl
@[simp] theorem goto_slots (s : State) (pc : Pc) : (goto s pc).slots = s.slots := rfl
@[simp] theorem goto_bivTurn (s : State) (pc : Pc) : (goto s pc).bivTurn = s.bivTurn := rfl
@[simp] theorem goto_xlt (s : State) (pc : Pc) : (goto s pc).xlt = s.xlt := rfl
@[simp] theorem goto_coh (s : State) (pc : Pc) : (goto s pc).coh = s.coh := rfl
@[simp] theorem goto_svc (s : State) (pc : Pc) : (goto s pc).svc = s.svc := rfl
@[simp] theorem goto_ctxs (s : State) (pc : Pc) : (goto s pc).ctxs = s.ctxs := rfl
@[simp] theorem goto_queues (s : State) (pc : Pc) : (goto s pc).queues = s.queues := rfl
@[simp] theorem goto_grids (s : State) (pc : Pc) : (goto s pc).grids = s.grids := rfl
@[simp] theorem goto_fab (s : State) (pc : Pc) : (goto s pc).fab = s.fab := rfl
@[simp] theorem goto_host (s : State) (pc : Pc) : (goto s pc).host = s.host := rfl
@[simp] theorem goto_pkg (s : State) (pc : Pc) : (goto s pc).pkg = s.pkg := rfl
@[simp] theorem goto_time (s : State) (pc : Pc) : (goto s pc).time = s.time := rfl
@[simp] theorem goto_fresh (s : State) (pc : Pc) : (goto s pc).fresh = s.fresh := rfl
@[simp] theorem goto_inputs (s : State) (pc : Pc) : (goto s pc).inputs = s.inputs := rfl

@[simp] theorem wake_w_status (s : State) : (wake s).w.status = .ready := rfl
@[simp] theorem wake_w_idx (s : State) : (wake s).w.idx = s.w.idx := rfl
@[simp] theorem wake_w_handle (s : State) : (wake s).w.handle = s.w.handle := rfl
@[simp] theorem wake_w_name (s : State) : (wake s).w.name = s.w.name := rfl
@[simp] theorem wake_w_pc (s : State) : (wake s).w.pc = s.w.pc := rfl
@[simp] theorem wake_w_clause (s : State) : (wake s).w.clause = s.w.clause := rfl
@[simp] theorem wake_w_sreg (s : State) : (wake s).w.sreg = s.w.sreg := rfl
@[simp] theorem wake_w_vreg (s : State) : (wake s).w.vreg = s.w.vreg := rfl
@[simp] theorem wake_w_vblocks (s : State) : (wake s).w.vblocks = s.w.vblocks := rfl
@[simp] theorem wake_w_pred (s : State) : (wake s).w.pred = s.w.pred := rfl
@[simp] theorem wake_w_tile (s : State) : (wake s).w.tile = s.w.tile := rfl
@[simp] theorem wake_w_side (s : State) : (wake s).w.side = s.w.side := rfl
@[simp] theorem wake_w_tiles (s : State) : (wake s).w.tiles = s.w.tiles := rfl
@[simp] theorem wake_w_flag (s : State) : (wake s).w.flag = s.w.flag := rfl
@[simp] theorem wake_w_mode (s : State) : (wake s).w.mode = s.w.mode := rfl
@[simp] theorem wake_w_role (s : State) : (wake s).w.role = s.w.role := rfl
@[simp] theorem wake_w_astat (s : State) : (wake s).w.astat = s.w.astat := rfl
@[simp] theorem wake_w_hmask (s : State) : (wake s).w.hmask = s.w.hmask := rfl
@[simp] theorem wake_w_rand (s : State) : (wake s).w.rand = s.w.rand := rfl
@[simp] theorem wake_w_keys (s : State) : (wake s).w.keys = s.w.keys := rfl
@[simp] theorem wake_w_stack (s : State) : (wake s).w.stack = s.w.stack := rfl
@[simp] theorem wake_w_batches (s : State) : (wake s).w.batches = s.w.batches := rfl
@[simp] theorem wake_w_trap (s : State) : (wake s).w.trap = s.w.trap := rfl
@[simp] theorem wake_w_ejected (s : State) : (wake s).w.ejected = s.w.ejected := rfl
@[simp] theorem wake_w_gone (s : State) : (wake s).w.gone = s.w.gone := rfl
@[simp] theorem wake_w_spill (s : State) : (wake s).w.spill = s.w.spill := rfl
@[simp] theorem wake_w_rejoinSoft (s : State) : (wake s).w.rejoinSoft = s.w.rejoinSoft := rfl
@[simp] theorem wake_w_ksendOverdue (s : State) : (wake s).w.ksendOverdue = s.w.ksendOverdue := rfl
@[simp] theorem wake_w_readsSince (s : State) : (wake s).w.readsSince = s.w.readsSince := rfl
@[simp] theorem wake_w_laneFault (s : State) : (wake s).w.laneFault = s.w.laneFault := rfl
@[simp] theorem wake_w_winTraps (s : State) : (wake s).w.winTraps = s.w.winTraps := rfl
@[simp] theorem wake_w_stackDue (s : State) : (wake s).w.stackDue = s.w.stackDue := rfl
@[simp] theorem wake_w_exitPop (s : State) : (wake s).w.exitPop = s.w.exitPop := rfl
@[simp] theorem wake_w_fell (s : State) : (wake s).w.fell = s.w.fell := rfl

@[simp] theorem wake_lane (s : State) : (wake s).lane = s.lane := rfl
@[simp] theorem wake_g (s : State) : (wake s).g = s.g := rfl
@[simp] theorem wake_groups (s : State) : (wake s).groups = s.groups := rfl
@[simp] theorem wake_records (s : State) : (wake s).records = s.records := rfl
@[simp] theorem wake_mem (s : State) : (wake s).mem = s.mem := rfl
@[simp] theorem wake_ops (s : State) : (wake s).ops = s.ops := rfl
@[simp] theorem wake_nextOp (s : State) : (wake s).nextOp = s.nextOp := rfl
@[simp] theorem wake_chains (s : State) : (wake s).chains = s.chains := rfl
@[simp] theorem wake_held (s : State) : (wake s).held = s.held := rfl
@[simp] theorem wake_slots (s : State) : (wake s).slots = s.slots := rfl
@[simp] theorem wake_bivTurn (s : State) : (wake s).bivTurn = s.bivTurn := rfl
@[simp] theorem wake_xlt (s : State) : (wake s).xlt = s.xlt := rfl
@[simp] theorem wake_coh (s : State) : (wake s).coh = s.coh := rfl
@[simp] theorem wake_svc (s : State) : (wake s).svc = s.svc := rfl
@[simp] theorem wake_ctxs (s : State) : (wake s).ctxs = s.ctxs := rfl
@[simp] theorem wake_queues (s : State) : (wake s).queues = s.queues := rfl
@[simp] theorem wake_grids (s : State) : (wake s).grids = s.grids := rfl
@[simp] theorem wake_fab (s : State) : (wake s).fab = s.fab := rfl
@[simp] theorem wake_host (s : State) : (wake s).host = s.host := rfl
@[simp] theorem wake_pkg (s : State) : (wake s).pkg = s.pkg := rfl
@[simp] theorem wake_time (s : State) : (wake s).time = s.time := rfl
@[simp] theorem wake_fresh (s : State) : (wake s).fresh = s.fresh := rfl
@[simp] theorem wake_inputs (s : State) : (wake s).inputs = s.inputs := rfl

@[simp] theorem hold_w_status (s : State) (x : Wait) : (hold s x).w.status = .waiting x := rfl
@[simp] theorem hold_w_idx (s : State) (x : Wait) : (hold s x).w.idx = s.w.idx := rfl
@[simp] theorem hold_w_handle (s : State) (x : Wait) : (hold s x).w.handle = s.w.handle := rfl
@[simp] theorem hold_w_name (s : State) (x : Wait) : (hold s x).w.name = s.w.name := rfl
@[simp] theorem hold_w_pc (s : State) (x : Wait) : (hold s x).w.pc = s.w.pc := rfl
@[simp] theorem hold_w_clause (s : State) (x : Wait) : (hold s x).w.clause = s.w.clause := rfl
@[simp] theorem hold_w_sreg (s : State) (x : Wait) : (hold s x).w.sreg = s.w.sreg := rfl
@[simp] theorem hold_w_vreg (s : State) (x : Wait) : (hold s x).w.vreg = s.w.vreg := rfl
@[simp] theorem hold_w_vblocks (s : State) (x : Wait) : (hold s x).w.vblocks = s.w.vblocks := rfl
@[simp] theorem hold_w_pred (s : State) (x : Wait) : (hold s x).w.pred = s.w.pred := rfl
@[simp] theorem hold_w_tile (s : State) (x : Wait) : (hold s x).w.tile = s.w.tile := rfl
@[simp] theorem hold_w_side (s : State) (x : Wait) : (hold s x).w.side = s.w.side := rfl
@[simp] theorem hold_w_tiles (s : State) (x : Wait) : (hold s x).w.tiles = s.w.tiles := rfl
@[simp] theorem hold_w_flag (s : State) (x : Wait) : (hold s x).w.flag = s.w.flag := rfl
@[simp] theorem hold_w_mode (s : State) (x : Wait) : (hold s x).w.mode = s.w.mode := rfl
@[simp] theorem hold_w_role (s : State) (x : Wait) : (hold s x).w.role = s.w.role := rfl
@[simp] theorem hold_w_astat (s : State) (x : Wait) : (hold s x).w.astat = s.w.astat := rfl
@[simp] theorem hold_w_hmask (s : State) (x : Wait) : (hold s x).w.hmask = s.w.hmask := rfl
@[simp] theorem hold_w_rand (s : State) (x : Wait) : (hold s x).w.rand = s.w.rand := rfl
@[simp] theorem hold_w_keys (s : State) (x : Wait) : (hold s x).w.keys = s.w.keys := rfl
@[simp] theorem hold_w_stack (s : State) (x : Wait) : (hold s x).w.stack = s.w.stack := rfl
@[simp] theorem hold_w_batches (s : State) (x : Wait) : (hold s x).w.batches = s.w.batches := rfl
@[simp] theorem hold_w_trap (s : State) (x : Wait) : (hold s x).w.trap = s.w.trap := rfl
@[simp] theorem hold_w_ejected (s : State) (x : Wait) : (hold s x).w.ejected = s.w.ejected := rfl
@[simp] theorem hold_w_gone (s : State) (x : Wait) : (hold s x).w.gone = s.w.gone := rfl
@[simp] theorem hold_w_spill (s : State) (x : Wait) : (hold s x).w.spill = s.w.spill := rfl
@[simp] theorem hold_w_rejoinSoft (s : State) (x : Wait) : (hold s x).w.rejoinSoft = s.w.rejoinSoft := rfl
@[simp] theorem hold_w_ksendOverdue (s : State) (x : Wait) : (hold s x).w.ksendOverdue = s.w.ksendOverdue := rfl
@[simp] theorem hold_w_readsSince (s : State) (x : Wait) : (hold s x).w.readsSince = s.w.readsSince := rfl
@[simp] theorem hold_w_laneFault (s : State) (x : Wait) : (hold s x).w.laneFault = s.w.laneFault := rfl
@[simp] theorem hold_w_winTraps (s : State) (x : Wait) : (hold s x).w.winTraps = s.w.winTraps := rfl
@[simp] theorem hold_w_stackDue (s : State) (x : Wait) : (hold s x).w.stackDue = s.w.stackDue := rfl
@[simp] theorem hold_w_exitPop (s : State) (x : Wait) : (hold s x).w.exitPop = s.w.exitPop := rfl
@[simp] theorem hold_w_fell (s : State) (x : Wait) : (hold s x).w.fell = s.w.fell := rfl

@[simp] theorem hold_lane (s : State) (x : Wait) : (hold s x).lane = s.lane := rfl
@[simp] theorem hold_g (s : State) (x : Wait) : (hold s x).g = s.g := rfl
@[simp] theorem hold_groups (s : State) (x : Wait) : (hold s x).groups = s.groups := rfl
@[simp] theorem hold_records (s : State) (x : Wait) : (hold s x).records = s.records := rfl
@[simp] theorem hold_mem (s : State) (x : Wait) : (hold s x).mem = s.mem := rfl
@[simp] theorem hold_ops (s : State) (x : Wait) : (hold s x).ops = s.ops := rfl
@[simp] theorem hold_nextOp (s : State) (x : Wait) : (hold s x).nextOp = s.nextOp := rfl
@[simp] theorem hold_chains (s : State) (x : Wait) : (hold s x).chains = s.chains := rfl
@[simp] theorem hold_held (s : State) (x : Wait) : (hold s x).held = s.held := rfl
@[simp] theorem hold_slots (s : State) (x : Wait) : (hold s x).slots = s.slots := rfl
@[simp] theorem hold_bivTurn (s : State) (x : Wait) : (hold s x).bivTurn = s.bivTurn := rfl
@[simp] theorem hold_xlt (s : State) (x : Wait) : (hold s x).xlt = s.xlt := rfl
@[simp] theorem hold_coh (s : State) (x : Wait) : (hold s x).coh = s.coh := rfl
@[simp] theorem hold_svc (s : State) (x : Wait) : (hold s x).svc = s.svc := rfl
@[simp] theorem hold_ctxs (s : State) (x : Wait) : (hold s x).ctxs = s.ctxs := rfl
@[simp] theorem hold_queues (s : State) (x : Wait) : (hold s x).queues = s.queues := rfl
@[simp] theorem hold_grids (s : State) (x : Wait) : (hold s x).grids = s.grids := rfl
@[simp] theorem hold_fab (s : State) (x : Wait) : (hold s x).fab = s.fab := rfl
@[simp] theorem hold_host (s : State) (x : Wait) : (hold s x).host = s.host := rfl
@[simp] theorem hold_pkg (s : State) (x : Wait) : (hold s x).pkg = s.pkg := rfl
@[simp] theorem hold_time (s : State) (x : Wait) : (hold s x).time = s.time := rfl
@[simp] theorem hold_fresh (s : State) (x : Wait) : (hold s x).fresh = s.fresh := rfl
@[simp] theorem hold_inputs (s : State) (x : Wait) : (hold s x).inputs = s.inputs := rfl

/-! ## Scalar registers, predicates, vector registers, masks -/

@[simp] theorem sset_w_idx (s : State) (n : Nat) (v : Word) : (sset s n v).w.idx = s.w.idx := by
  unfold sset; split
  · rfl
  · split <;> rfl
@[simp] theorem sset_w_handle (s : State) (n : Nat) (v : Word) : (sset s n v).w.handle = s.w.handle := by
  unfold sset; split
  · rfl
  · split <;> rfl
@[simp] theorem sset_w_name (s : State) (n : Nat) (v : Word) : (sset s n v).w.name = s.w.name := by
  unfold sset; split
  · rfl
  · split <;> rfl
@[simp] theorem sset_w_status (s : State) (n : Nat) (v : Word) : (sset s n v).w.status = s.w.status := by
  unfold sset; split
  · rfl
  · split <;> rfl
@[simp] theorem sset_w_pc (s : State) (n : Nat) (v : Word) : (sset s n v).w.pc = s.w.pc := by
  unfold sset; split
  · rfl
  · split <;> rfl
@[simp] theorem sset_w_clause (s : State) (n : Nat) (v : Word) : (sset s n v).w.clause = s.w.clause := by
  unfold sset; split
  · rfl
  · split <;> rfl
@[simp] theorem sset_w_vreg (s : State) (n : Nat) (v : Word) : (sset s n v).w.vreg = s.w.vreg := by
  unfold sset; split
  · rfl
  · split <;> rfl
@[simp] theorem sset_w_vblocks (s : State) (n : Nat) (v : Word) : (sset s n v).w.vblocks = s.w.vblocks := by
  unfold sset; split
  · rfl
  · split <;> rfl
@[simp] theorem sset_w_pred (s : State) (n : Nat) (v : Word) : (sset s n v).w.pred = s.w.pred := by
  unfold sset; split
  · rfl
  · split <;> rfl
@[simp] theorem sset_w_tile (s : State) (n : Nat) (v : Word) : (sset s n v).w.tile = s.w.tile := by
  unfold sset; split
  · rfl
  · split <;> rfl
@[simp] theorem sset_w_side (s : State) (n : Nat) (v : Word) : (sset s n v).w.side = s.w.side := by
  unfold sset; split
  · rfl
  · split <;> rfl
@[simp] theorem sset_w_tiles (s : State) (n : Nat) (v : Word) : (sset s n v).w.tiles = s.w.tiles := by
  unfold sset; split
  · rfl
  · split <;> rfl
@[simp] theorem sset_w_flag (s : State) (n : Nat) (v : Word) : (sset s n v).w.flag = s.w.flag := by
  unfold sset; split
  · rfl
  · split <;> rfl
@[simp] theorem sset_w_mode (s : State) (n : Nat) (v : Word) : (sset s n v).w.mode = s.w.mode := by
  unfold sset; split
  · rfl
  · split <;> rfl
@[simp] theorem sset_w_role (s : State) (n : Nat) (v : Word) : (sset s n v).w.role = s.w.role := by
  unfold sset; split
  · rfl
  · split <;> rfl
@[simp] theorem sset_w_astat (s : State) (n : Nat) (v : Word) : (sset s n v).w.astat = s.w.astat := by
  unfold sset; split
  · rfl
  · split <;> rfl
@[simp] theorem sset_w_hmask (s : State) (n : Nat) (v : Word) : (sset s n v).w.hmask = s.w.hmask := by
  unfold sset; split
  · rfl
  · split <;> rfl
@[simp] theorem sset_w_rand (s : State) (n : Nat) (v : Word) : (sset s n v).w.rand = s.w.rand := by
  unfold sset; split
  · rfl
  · split <;> rfl
@[simp] theorem sset_w_keys (s : State) (n : Nat) (v : Word) : (sset s n v).w.keys = s.w.keys := by
  unfold sset; split
  · rfl
  · split <;> rfl
@[simp] theorem sset_w_stack (s : State) (n : Nat) (v : Word) : (sset s n v).w.stack = s.w.stack := by
  unfold sset; split
  · rfl
  · split <;> rfl
@[simp] theorem sset_w_batches (s : State) (n : Nat) (v : Word) : (sset s n v).w.batches = s.w.batches := by
  unfold sset; split
  · rfl
  · split <;> rfl
@[simp] theorem sset_w_trap (s : State) (n : Nat) (v : Word) : (sset s n v).w.trap = s.w.trap := by
  unfold sset; split
  · rfl
  · split <;> rfl
@[simp] theorem sset_w_ejected (s : State) (n : Nat) (v : Word) : (sset s n v).w.ejected = s.w.ejected := by
  unfold sset; split
  · rfl
  · split <;> rfl
@[simp] theorem sset_w_gone (s : State) (n : Nat) (v : Word) : (sset s n v).w.gone = s.w.gone := by
  unfold sset; split
  · rfl
  · split <;> rfl
@[simp] theorem sset_w_spill (s : State) (n : Nat) (v : Word) : (sset s n v).w.spill = s.w.spill := by
  unfold sset; split
  · rfl
  · split <;> rfl
@[simp] theorem sset_w_rejoinSoft (s : State) (n : Nat) (v : Word) : (sset s n v).w.rejoinSoft = s.w.rejoinSoft := by
  unfold sset; split
  · rfl
  · split <;> rfl
@[simp] theorem sset_w_ksendOverdue (s : State) (n : Nat) (v : Word) : (sset s n v).w.ksendOverdue = s.w.ksendOverdue := by
  unfold sset; split
  · rfl
  · split <;> rfl
@[simp] theorem sset_w_readsSince (s : State) (n : Nat) (v : Word) : (sset s n v).w.readsSince = s.w.readsSince := by
  unfold sset; split
  · rfl
  · split <;> rfl
@[simp] theorem sset_w_laneFault (s : State) (n : Nat) (v : Word) : (sset s n v).w.laneFault = s.w.laneFault := by
  unfold sset; split
  · rfl
  · split <;> rfl
@[simp] theorem sset_w_winTraps (s : State) (n : Nat) (v : Word) : (sset s n v).w.winTraps = s.w.winTraps := by
  unfold sset; split
  · rfl
  · split <;> rfl
@[simp] theorem sset_w_stackDue (s : State) (n : Nat) (v : Word) : (sset s n v).w.stackDue = s.w.stackDue := by
  unfold sset; split
  · rfl
  · split <;> rfl
@[simp] theorem sset_w_exitPop (s : State) (n : Nat) (v : Word) : (sset s n v).w.exitPop = s.w.exitPop := by
  unfold sset; split
  · rfl
  · split <;> rfl
@[simp] theorem sset_w_fell (s : State) (n : Nat) (v : Word) : (sset s n v).w.fell = s.w.fell := by
  unfold sset; split
  · rfl
  · split <;> rfl

@[simp] theorem sset_lane (s : State) (n : Nat) (v : Word) : (sset s n v).lane = s.lane := by
  unfold sset; split
  · rfl
  · split <;> rfl
@[simp] theorem sset_g (s : State) (n : Nat) (v : Word) : (sset s n v).g = s.g := by
  unfold sset; split
  · rfl
  · split <;> rfl
@[simp] theorem sset_groups (s : State) (n : Nat) (v : Word) : (sset s n v).groups = s.groups := by
  unfold sset; split
  · rfl
  · split <;> rfl
@[simp] theorem sset_records (s : State) (n : Nat) (v : Word) : (sset s n v).records = s.records := by
  unfold sset; split
  · rfl
  · split <;> rfl
@[simp] theorem sset_mem (s : State) (n : Nat) (v : Word) : (sset s n v).mem = s.mem := by
  unfold sset; split
  · rfl
  · split <;> rfl
@[simp] theorem sset_ops (s : State) (n : Nat) (v : Word) : (sset s n v).ops = s.ops := by
  unfold sset; split
  · rfl
  · split <;> rfl
@[simp] theorem sset_nextOp (s : State) (n : Nat) (v : Word) : (sset s n v).nextOp = s.nextOp := by
  unfold sset; split
  · rfl
  · split <;> rfl
@[simp] theorem sset_chains (s : State) (n : Nat) (v : Word) : (sset s n v).chains = s.chains := by
  unfold sset; split
  · rfl
  · split <;> rfl
@[simp] theorem sset_held (s : State) (n : Nat) (v : Word) : (sset s n v).held = s.held := by
  unfold sset; split
  · rfl
  · split <;> rfl
@[simp] theorem sset_slots (s : State) (n : Nat) (v : Word) : (sset s n v).slots = s.slots := by
  unfold sset; split
  · rfl
  · split <;> rfl
@[simp] theorem sset_bivTurn (s : State) (n : Nat) (v : Word) : (sset s n v).bivTurn = s.bivTurn := by
  unfold sset; split
  · rfl
  · split <;> rfl
@[simp] theorem sset_xlt (s : State) (n : Nat) (v : Word) : (sset s n v).xlt = s.xlt := by
  unfold sset; split
  · rfl
  · split <;> rfl
@[simp] theorem sset_coh (s : State) (n : Nat) (v : Word) : (sset s n v).coh = s.coh := by
  unfold sset; split
  · rfl
  · split <;> rfl
@[simp] theorem sset_svc (s : State) (n : Nat) (v : Word) : (sset s n v).svc = s.svc := by
  unfold sset; split
  · rfl
  · split <;> rfl
@[simp] theorem sset_ctxs (s : State) (n : Nat) (v : Word) : (sset s n v).ctxs = s.ctxs := by
  unfold sset; split
  · rfl
  · split <;> rfl
@[simp] theorem sset_queues (s : State) (n : Nat) (v : Word) : (sset s n v).queues = s.queues := by
  unfold sset; split
  · rfl
  · split <;> rfl
@[simp] theorem sset_grids (s : State) (n : Nat) (v : Word) : (sset s n v).grids = s.grids := by
  unfold sset; split
  · rfl
  · split <;> rfl
@[simp] theorem sset_fab (s : State) (n : Nat) (v : Word) : (sset s n v).fab = s.fab := by
  unfold sset; split
  · rfl
  · split <;> rfl
@[simp] theorem sset_host (s : State) (n : Nat) (v : Word) : (sset s n v).host = s.host := by
  unfold sset; split
  · rfl
  · split <;> rfl
@[simp] theorem sset_pkg (s : State) (n : Nat) (v : Word) : (sset s n v).pkg = s.pkg := by
  unfold sset; split
  · rfl
  · split <;> rfl
@[simp] theorem sset_time (s : State) (n : Nat) (v : Word) : (sset s n v).time = s.time := by
  unfold sset; split
  · rfl
  · split <;> rfl
@[simp] theorem sset_fresh (s : State) (n : Nat) (v : Word) : (sset s n v).fresh = s.fresh := by
  unfold sset; split
  · rfl
  · split <;> rfl
@[simp] theorem sset_inputs (s : State) (n : Nat) (v : Word) : (sset s n v).inputs = s.inputs := by
  unfold sset; split
  · rfl
  · split <;> rfl

@[simp] theorem pset_w_idx (s : State) (n : Nat) (m : LaneMask) : (pset s n m).w.idx = s.w.idx := by unfold pset; split <;> rfl
@[simp] theorem pset_w_handle (s : State) (n : Nat) (m : LaneMask) : (pset s n m).w.handle = s.w.handle := by unfold pset; split <;> rfl
@[simp] theorem pset_w_name (s : State) (n : Nat) (m : LaneMask) : (pset s n m).w.name = s.w.name := by unfold pset; split <;> rfl
@[simp] theorem pset_w_status (s : State) (n : Nat) (m : LaneMask) : (pset s n m).w.status = s.w.status := by unfold pset; split <;> rfl
@[simp] theorem pset_w_pc (s : State) (n : Nat) (m : LaneMask) : (pset s n m).w.pc = s.w.pc := by unfold pset; split <;> rfl
@[simp] theorem pset_w_clause (s : State) (n : Nat) (m : LaneMask) : (pset s n m).w.clause = s.w.clause := by unfold pset; split <;> rfl
@[simp] theorem pset_w_sreg (s : State) (n : Nat) (m : LaneMask) : (pset s n m).w.sreg = s.w.sreg := by unfold pset; split <;> rfl
@[simp] theorem pset_w_vreg (s : State) (n : Nat) (m : LaneMask) : (pset s n m).w.vreg = s.w.vreg := by unfold pset; split <;> rfl
@[simp] theorem pset_w_vblocks (s : State) (n : Nat) (m : LaneMask) : (pset s n m).w.vblocks = s.w.vblocks := by unfold pset; split <;> rfl
@[simp] theorem pset_w_tile (s : State) (n : Nat) (m : LaneMask) : (pset s n m).w.tile = s.w.tile := by unfold pset; split <;> rfl
@[simp] theorem pset_w_side (s : State) (n : Nat) (m : LaneMask) : (pset s n m).w.side = s.w.side := by unfold pset; split <;> rfl
@[simp] theorem pset_w_tiles (s : State) (n : Nat) (m : LaneMask) : (pset s n m).w.tiles = s.w.tiles := by unfold pset; split <;> rfl
@[simp] theorem pset_w_flag (s : State) (n : Nat) (m : LaneMask) : (pset s n m).w.flag = s.w.flag := by unfold pset; split <;> rfl
@[simp] theorem pset_w_mode (s : State) (n : Nat) (m : LaneMask) : (pset s n m).w.mode = s.w.mode := by unfold pset; split <;> rfl
@[simp] theorem pset_w_role (s : State) (n : Nat) (m : LaneMask) : (pset s n m).w.role = s.w.role := by unfold pset; split <;> rfl
@[simp] theorem pset_w_astat (s : State) (n : Nat) (m : LaneMask) : (pset s n m).w.astat = s.w.astat := by unfold pset; split <;> rfl
@[simp] theorem pset_w_hmask (s : State) (n : Nat) (m : LaneMask) : (pset s n m).w.hmask = s.w.hmask := by unfold pset; split <;> rfl
@[simp] theorem pset_w_rand (s : State) (n : Nat) (m : LaneMask) : (pset s n m).w.rand = s.w.rand := by unfold pset; split <;> rfl
@[simp] theorem pset_w_keys (s : State) (n : Nat) (m : LaneMask) : (pset s n m).w.keys = s.w.keys := by unfold pset; split <;> rfl
@[simp] theorem pset_w_stack (s : State) (n : Nat) (m : LaneMask) : (pset s n m).w.stack = s.w.stack := by unfold pset; split <;> rfl
@[simp] theorem pset_w_batches (s : State) (n : Nat) (m : LaneMask) : (pset s n m).w.batches = s.w.batches := by unfold pset; split <;> rfl
@[simp] theorem pset_w_trap (s : State) (n : Nat) (m : LaneMask) : (pset s n m).w.trap = s.w.trap := by unfold pset; split <;> rfl
@[simp] theorem pset_w_ejected (s : State) (n : Nat) (m : LaneMask) : (pset s n m).w.ejected = s.w.ejected := by unfold pset; split <;> rfl
@[simp] theorem pset_w_gone (s : State) (n : Nat) (m : LaneMask) : (pset s n m).w.gone = s.w.gone := by unfold pset; split <;> rfl
@[simp] theorem pset_w_spill (s : State) (n : Nat) (m : LaneMask) : (pset s n m).w.spill = s.w.spill := by unfold pset; split <;> rfl
@[simp] theorem pset_w_rejoinSoft (s : State) (n : Nat) (m : LaneMask) : (pset s n m).w.rejoinSoft = s.w.rejoinSoft := by unfold pset; split <;> rfl
@[simp] theorem pset_w_ksendOverdue (s : State) (n : Nat) (m : LaneMask) : (pset s n m).w.ksendOverdue = s.w.ksendOverdue := by unfold pset; split <;> rfl
@[simp] theorem pset_w_readsSince (s : State) (n : Nat) (m : LaneMask) : (pset s n m).w.readsSince = s.w.readsSince := by unfold pset; split <;> rfl
@[simp] theorem pset_w_laneFault (s : State) (n : Nat) (m : LaneMask) : (pset s n m).w.laneFault = s.w.laneFault := by unfold pset; split <;> rfl
@[simp] theorem pset_w_winTraps (s : State) (n : Nat) (m : LaneMask) : (pset s n m).w.winTraps = s.w.winTraps := by unfold pset; split <;> rfl
@[simp] theorem pset_w_stackDue (s : State) (n : Nat) (m : LaneMask) : (pset s n m).w.stackDue = s.w.stackDue := by unfold pset; split <;> rfl
@[simp] theorem pset_w_exitPop (s : State) (n : Nat) (m : LaneMask) : (pset s n m).w.exitPop = s.w.exitPop := by unfold pset; split <;> rfl
@[simp] theorem pset_w_fell (s : State) (n : Nat) (m : LaneMask) : (pset s n m).w.fell = s.w.fell := by unfold pset; split <;> rfl

@[simp] theorem pset_lane (s : State) (n : Nat) (m : LaneMask) : (pset s n m).lane = s.lane := by unfold pset; split <;> rfl
@[simp] theorem pset_g (s : State) (n : Nat) (m : LaneMask) : (pset s n m).g = s.g := by unfold pset; split <;> rfl
@[simp] theorem pset_groups (s : State) (n : Nat) (m : LaneMask) : (pset s n m).groups = s.groups := by unfold pset; split <;> rfl
@[simp] theorem pset_records (s : State) (n : Nat) (m : LaneMask) : (pset s n m).records = s.records := by unfold pset; split <;> rfl
@[simp] theorem pset_mem (s : State) (n : Nat) (m : LaneMask) : (pset s n m).mem = s.mem := by unfold pset; split <;> rfl
@[simp] theorem pset_ops (s : State) (n : Nat) (m : LaneMask) : (pset s n m).ops = s.ops := by unfold pset; split <;> rfl
@[simp] theorem pset_nextOp (s : State) (n : Nat) (m : LaneMask) : (pset s n m).nextOp = s.nextOp := by unfold pset; split <;> rfl
@[simp] theorem pset_chains (s : State) (n : Nat) (m : LaneMask) : (pset s n m).chains = s.chains := by unfold pset; split <;> rfl
@[simp] theorem pset_held (s : State) (n : Nat) (m : LaneMask) : (pset s n m).held = s.held := by unfold pset; split <;> rfl
@[simp] theorem pset_slots (s : State) (n : Nat) (m : LaneMask) : (pset s n m).slots = s.slots := by unfold pset; split <;> rfl
@[simp] theorem pset_bivTurn (s : State) (n : Nat) (m : LaneMask) : (pset s n m).bivTurn = s.bivTurn := by unfold pset; split <;> rfl
@[simp] theorem pset_xlt (s : State) (n : Nat) (m : LaneMask) : (pset s n m).xlt = s.xlt := by unfold pset; split <;> rfl
@[simp] theorem pset_coh (s : State) (n : Nat) (m : LaneMask) : (pset s n m).coh = s.coh := by unfold pset; split <;> rfl
@[simp] theorem pset_svc (s : State) (n : Nat) (m : LaneMask) : (pset s n m).svc = s.svc := by unfold pset; split <;> rfl
@[simp] theorem pset_ctxs (s : State) (n : Nat) (m : LaneMask) : (pset s n m).ctxs = s.ctxs := by unfold pset; split <;> rfl
@[simp] theorem pset_queues (s : State) (n : Nat) (m : LaneMask) : (pset s n m).queues = s.queues := by unfold pset; split <;> rfl
@[simp] theorem pset_grids (s : State) (n : Nat) (m : LaneMask) : (pset s n m).grids = s.grids := by unfold pset; split <;> rfl
@[simp] theorem pset_fab (s : State) (n : Nat) (m : LaneMask) : (pset s n m).fab = s.fab := by unfold pset; split <;> rfl
@[simp] theorem pset_host (s : State) (n : Nat) (m : LaneMask) : (pset s n m).host = s.host := by unfold pset; split <;> rfl
@[simp] theorem pset_pkg (s : State) (n : Nat) (m : LaneMask) : (pset s n m).pkg = s.pkg := by unfold pset; split <;> rfl
@[simp] theorem pset_time (s : State) (n : Nat) (m : LaneMask) : (pset s n m).time = s.time := by unfold pset; split <;> rfl
@[simp] theorem pset_fresh (s : State) (n : Nat) (m : LaneMask) : (pset s n m).fresh = s.fresh := by unfold pset; split <;> rfl
@[simp] theorem pset_inputs (s : State) (n : Nat) (m : LaneMask) : (pset s n m).inputs = s.inputs := by unfold pset; split <;> rfl

@[simp] theorem vsetRow_w_idx (s : State) (n : Nat) (r : Tab Word) : (vsetRow s n r).w.idx = s.w.idx := by unfold vsetRow; split <;> rfl
@[simp] theorem vsetRow_w_handle (s : State) (n : Nat) (r : Tab Word) : (vsetRow s n r).w.handle = s.w.handle := by unfold vsetRow; split <;> rfl
@[simp] theorem vsetRow_w_name (s : State) (n : Nat) (r : Tab Word) : (vsetRow s n r).w.name = s.w.name := by unfold vsetRow; split <;> rfl
@[simp] theorem vsetRow_w_status (s : State) (n : Nat) (r : Tab Word) : (vsetRow s n r).w.status = s.w.status := by unfold vsetRow; split <;> rfl
@[simp] theorem vsetRow_w_pc (s : State) (n : Nat) (r : Tab Word) : (vsetRow s n r).w.pc = s.w.pc := by unfold vsetRow; split <;> rfl
@[simp] theorem vsetRow_w_clause (s : State) (n : Nat) (r : Tab Word) : (vsetRow s n r).w.clause = s.w.clause := by unfold vsetRow; split <;> rfl
@[simp] theorem vsetRow_w_sreg (s : State) (n : Nat) (r : Tab Word) : (vsetRow s n r).w.sreg = s.w.sreg := by unfold vsetRow; split <;> rfl
@[simp] theorem vsetRow_w_vblocks (s : State) (n : Nat) (r : Tab Word) : (vsetRow s n r).w.vblocks = s.w.vblocks := by unfold vsetRow; split <;> rfl
@[simp] theorem vsetRow_w_pred (s : State) (n : Nat) (r : Tab Word) : (vsetRow s n r).w.pred = s.w.pred := by unfold vsetRow; split <;> rfl
@[simp] theorem vsetRow_w_tile (s : State) (n : Nat) (r : Tab Word) : (vsetRow s n r).w.tile = s.w.tile := by unfold vsetRow; split <;> rfl
@[simp] theorem vsetRow_w_side (s : State) (n : Nat) (r : Tab Word) : (vsetRow s n r).w.side = s.w.side := by unfold vsetRow; split <;> rfl
@[simp] theorem vsetRow_w_tiles (s : State) (n : Nat) (r : Tab Word) : (vsetRow s n r).w.tiles = s.w.tiles := by unfold vsetRow; split <;> rfl
@[simp] theorem vsetRow_w_flag (s : State) (n : Nat) (r : Tab Word) : (vsetRow s n r).w.flag = s.w.flag := by unfold vsetRow; split <;> rfl
@[simp] theorem vsetRow_w_mode (s : State) (n : Nat) (r : Tab Word) : (vsetRow s n r).w.mode = s.w.mode := by unfold vsetRow; split <;> rfl
@[simp] theorem vsetRow_w_role (s : State) (n : Nat) (r : Tab Word) : (vsetRow s n r).w.role = s.w.role := by unfold vsetRow; split <;> rfl
@[simp] theorem vsetRow_w_astat (s : State) (n : Nat) (r : Tab Word) : (vsetRow s n r).w.astat = s.w.astat := by unfold vsetRow; split <;> rfl
@[simp] theorem vsetRow_w_hmask (s : State) (n : Nat) (r : Tab Word) : (vsetRow s n r).w.hmask = s.w.hmask := by unfold vsetRow; split <;> rfl
@[simp] theorem vsetRow_w_rand (s : State) (n : Nat) (r : Tab Word) : (vsetRow s n r).w.rand = s.w.rand := by unfold vsetRow; split <;> rfl
@[simp] theorem vsetRow_w_keys (s : State) (n : Nat) (r : Tab Word) : (vsetRow s n r).w.keys = s.w.keys := by unfold vsetRow; split <;> rfl
@[simp] theorem vsetRow_w_stack (s : State) (n : Nat) (r : Tab Word) : (vsetRow s n r).w.stack = s.w.stack := by unfold vsetRow; split <;> rfl
@[simp] theorem vsetRow_w_batches (s : State) (n : Nat) (r : Tab Word) : (vsetRow s n r).w.batches = s.w.batches := by unfold vsetRow; split <;> rfl
@[simp] theorem vsetRow_w_ejected (s : State) (n : Nat) (r : Tab Word) : (vsetRow s n r).w.ejected = s.w.ejected := by unfold vsetRow; split <;> rfl
@[simp] theorem vsetRow_w_gone (s : State) (n : Nat) (r : Tab Word) : (vsetRow s n r).w.gone = s.w.gone := by unfold vsetRow; split <;> rfl
@[simp] theorem vsetRow_w_spill (s : State) (n : Nat) (r : Tab Word) : (vsetRow s n r).w.spill = s.w.spill := by unfold vsetRow; split <;> rfl
@[simp] theorem vsetRow_w_rejoinSoft (s : State) (n : Nat) (r : Tab Word) : (vsetRow s n r).w.rejoinSoft = s.w.rejoinSoft := by unfold vsetRow; split <;> rfl
@[simp] theorem vsetRow_w_ksendOverdue (s : State) (n : Nat) (r : Tab Word) : (vsetRow s n r).w.ksendOverdue = s.w.ksendOverdue := by unfold vsetRow; split <;> rfl
@[simp] theorem vsetRow_w_readsSince (s : State) (n : Nat) (r : Tab Word) : (vsetRow s n r).w.readsSince = s.w.readsSince := by unfold vsetRow; split <;> rfl
@[simp] theorem vsetRow_w_laneFault (s : State) (n : Nat) (r : Tab Word) : (vsetRow s n r).w.laneFault = s.w.laneFault := by unfold vsetRow; split <;> rfl
@[simp] theorem vsetRow_w_winTraps (s : State) (n : Nat) (r : Tab Word) : (vsetRow s n r).w.winTraps = s.w.winTraps := by unfold vsetRow; split <;> rfl
@[simp] theorem vsetRow_w_stackDue (s : State) (n : Nat) (r : Tab Word) : (vsetRow s n r).w.stackDue = s.w.stackDue := by unfold vsetRow; split <;> rfl
@[simp] theorem vsetRow_w_exitPop (s : State) (n : Nat) (r : Tab Word) : (vsetRow s n r).w.exitPop = s.w.exitPop := by unfold vsetRow; split <;> rfl
@[simp] theorem vsetRow_w_fell (s : State) (n : Nat) (r : Tab Word) : (vsetRow s n r).w.fell = s.w.fell := by unfold vsetRow; split <;> rfl

@[simp] theorem vsetRow_lane (s : State) (n : Nat) (r : Tab Word) : (vsetRow s n r).lane = s.lane := by unfold vsetRow; split <;> rfl
@[simp] theorem vsetRow_g (s : State) (n : Nat) (r : Tab Word) : (vsetRow s n r).g = s.g := by unfold vsetRow; split <;> rfl
@[simp] theorem vsetRow_groups (s : State) (n : Nat) (r : Tab Word) : (vsetRow s n r).groups = s.groups := by unfold vsetRow; split <;> rfl
@[simp] theorem vsetRow_records (s : State) (n : Nat) (r : Tab Word) : (vsetRow s n r).records = s.records := by unfold vsetRow; split <;> rfl
@[simp] theorem vsetRow_mem (s : State) (n : Nat) (r : Tab Word) : (vsetRow s n r).mem = s.mem := by unfold vsetRow; split <;> rfl
@[simp] theorem vsetRow_ops (s : State) (n : Nat) (r : Tab Word) : (vsetRow s n r).ops = s.ops := by unfold vsetRow; split <;> rfl
@[simp] theorem vsetRow_nextOp (s : State) (n : Nat) (r : Tab Word) : (vsetRow s n r).nextOp = s.nextOp := by unfold vsetRow; split <;> rfl
@[simp] theorem vsetRow_chains (s : State) (n : Nat) (r : Tab Word) : (vsetRow s n r).chains = s.chains := by unfold vsetRow; split <;> rfl
@[simp] theorem vsetRow_held (s : State) (n : Nat) (r : Tab Word) : (vsetRow s n r).held = s.held := by unfold vsetRow; split <;> rfl
@[simp] theorem vsetRow_slots (s : State) (n : Nat) (r : Tab Word) : (vsetRow s n r).slots = s.slots := by unfold vsetRow; split <;> rfl
@[simp] theorem vsetRow_bivTurn (s : State) (n : Nat) (r : Tab Word) : (vsetRow s n r).bivTurn = s.bivTurn := by unfold vsetRow; split <;> rfl
@[simp] theorem vsetRow_xlt (s : State) (n : Nat) (r : Tab Word) : (vsetRow s n r).xlt = s.xlt := by unfold vsetRow; split <;> rfl
@[simp] theorem vsetRow_coh (s : State) (n : Nat) (r : Tab Word) : (vsetRow s n r).coh = s.coh := by unfold vsetRow; split <;> rfl
@[simp] theorem vsetRow_svc (s : State) (n : Nat) (r : Tab Word) : (vsetRow s n r).svc = s.svc := by unfold vsetRow; split <;> rfl
@[simp] theorem vsetRow_ctxs (s : State) (n : Nat) (r : Tab Word) : (vsetRow s n r).ctxs = s.ctxs := by unfold vsetRow; split <;> rfl
@[simp] theorem vsetRow_queues (s : State) (n : Nat) (r : Tab Word) : (vsetRow s n r).queues = s.queues := by unfold vsetRow; split <;> rfl
@[simp] theorem vsetRow_grids (s : State) (n : Nat) (r : Tab Word) : (vsetRow s n r).grids = s.grids := by unfold vsetRow; split <;> rfl
@[simp] theorem vsetRow_fab (s : State) (n : Nat) (r : Tab Word) : (vsetRow s n r).fab = s.fab := by unfold vsetRow; split <;> rfl
@[simp] theorem vsetRow_host (s : State) (n : Nat) (r : Tab Word) : (vsetRow s n r).host = s.host := by unfold vsetRow; split <;> rfl
@[simp] theorem vsetRow_pkg (s : State) (n : Nat) (r : Tab Word) : (vsetRow s n r).pkg = s.pkg := by unfold vsetRow; split <;> rfl
@[simp] theorem vsetRow_time (s : State) (n : Nat) (r : Tab Word) : (vsetRow s n r).time = s.time := by unfold vsetRow; split <;> rfl
@[simp] theorem vsetRow_fresh (s : State) (n : Nat) (r : Tab Word) : (vsetRow s n r).fresh = s.fresh := by unfold vsetRow; split <;> rfl
@[simp] theorem vsetRow_inputs (s : State) (n : Nat) (r : Tab Word) : (vsetRow s n r).inputs = s.inputs := by unfold vsetRow; split <;> rfl

@[simp] theorem setStack_w_idx (s : State) (x : List Entry) : (setStack s x).w.idx = s.w.idx := by unfold setStack; split <;> rfl
@[simp] theorem setStack_w_handle (s : State) (x : List Entry) : (setStack s x).w.handle = s.w.handle := by unfold setStack; split <;> rfl
@[simp] theorem setStack_w_name (s : State) (x : List Entry) : (setStack s x).w.name = s.w.name := by unfold setStack; split <;> rfl
@[simp] theorem setStack_w_status (s : State) (x : List Entry) : (setStack s x).w.status = s.w.status := by unfold setStack; split <;> rfl
@[simp] theorem setStack_w_pc (s : State) (x : List Entry) : (setStack s x).w.pc = s.w.pc := by unfold setStack; split <;> rfl
@[simp] theorem setStack_w_clause (s : State) (x : List Entry) : (setStack s x).w.clause = s.w.clause := by unfold setStack; split <;> rfl
@[simp] theorem setStack_w_sreg (s : State) (x : List Entry) : (setStack s x).w.sreg = s.w.sreg := by unfold setStack; split <;> rfl
@[simp] theorem setStack_w_vreg (s : State) (x : List Entry) : (setStack s x).w.vreg = s.w.vreg := by unfold setStack; split <;> rfl
@[simp] theorem setStack_w_vblocks (s : State) (x : List Entry) : (setStack s x).w.vblocks = s.w.vblocks := by unfold setStack; split <;> rfl
@[simp] theorem setStack_w_pred (s : State) (x : List Entry) : (setStack s x).w.pred = s.w.pred := by unfold setStack; split <;> rfl
@[simp] theorem setStack_w_tile (s : State) (x : List Entry) : (setStack s x).w.tile = s.w.tile := by unfold setStack; split <;> rfl
@[simp] theorem setStack_w_side (s : State) (x : List Entry) : (setStack s x).w.side = s.w.side := by unfold setStack; split <;> rfl
@[simp] theorem setStack_w_tiles (s : State) (x : List Entry) : (setStack s x).w.tiles = s.w.tiles := by unfold setStack; split <;> rfl
@[simp] theorem setStack_w_flag (s : State) (x : List Entry) : (setStack s x).w.flag = s.w.flag := by unfold setStack; split <;> rfl
@[simp] theorem setStack_w_mode (s : State) (x : List Entry) : (setStack s x).w.mode = s.w.mode := by unfold setStack; split <;> rfl
@[simp] theorem setStack_w_role (s : State) (x : List Entry) : (setStack s x).w.role = s.w.role := by unfold setStack; split <;> rfl
@[simp] theorem setStack_w_astat (s : State) (x : List Entry) : (setStack s x).w.astat = s.w.astat := by unfold setStack; split <;> rfl
@[simp] theorem setStack_w_hmask (s : State) (x : List Entry) : (setStack s x).w.hmask = s.w.hmask := by unfold setStack; split <;> rfl
@[simp] theorem setStack_w_rand (s : State) (x : List Entry) : (setStack s x).w.rand = s.w.rand := by unfold setStack; split <;> rfl
@[simp] theorem setStack_w_keys (s : State) (x : List Entry) : (setStack s x).w.keys = s.w.keys := by unfold setStack; split <;> rfl
@[simp] theorem setStack_w_batches (s : State) (x : List Entry) : (setStack s x).w.batches = s.w.batches := by unfold setStack; split <;> rfl
@[simp] theorem setStack_w_ejected (s : State) (x : List Entry) : (setStack s x).w.ejected = s.w.ejected := by unfold setStack; split <;> rfl
@[simp] theorem setStack_w_gone (s : State) (x : List Entry) : (setStack s x).w.gone = s.w.gone := by unfold setStack; split <;> rfl
@[simp] theorem setStack_w_spill (s : State) (x : List Entry) : (setStack s x).w.spill = s.w.spill := by unfold setStack; split <;> rfl
@[simp] theorem setStack_w_rejoinSoft (s : State) (x : List Entry) : (setStack s x).w.rejoinSoft = s.w.rejoinSoft := by unfold setStack; split <;> rfl
@[simp] theorem setStack_w_ksendOverdue (s : State) (x : List Entry) : (setStack s x).w.ksendOverdue = s.w.ksendOverdue := by unfold setStack; split <;> rfl
@[simp] theorem setStack_w_readsSince (s : State) (x : List Entry) : (setStack s x).w.readsSince = s.w.readsSince := by unfold setStack; split <;> rfl
@[simp] theorem setStack_w_laneFault (s : State) (x : List Entry) : (setStack s x).w.laneFault = s.w.laneFault := by unfold setStack; split <;> rfl
@[simp] theorem setStack_w_winTraps (s : State) (x : List Entry) : (setStack s x).w.winTraps = s.w.winTraps := by unfold setStack; split <;> rfl
@[simp] theorem setStack_w_stackDue (s : State) (x : List Entry) : (setStack s x).w.stackDue = s.w.stackDue := by unfold setStack; split <;> rfl
@[simp] theorem setStack_w_exitPop (s : State) (x : List Entry) : (setStack s x).w.exitPop = s.w.exitPop := by unfold setStack; split <;> rfl
@[simp] theorem setStack_w_fell (s : State) (x : List Entry) : (setStack s x).w.fell = s.w.fell := by unfold setStack; split <;> rfl

@[simp] theorem setStack_lane (s : State) (x : List Entry) : (setStack s x).lane = s.lane := by unfold setStack; split <;> rfl
@[simp] theorem setStack_g (s : State) (x : List Entry) : (setStack s x).g = s.g := by unfold setStack; split <;> rfl
@[simp] theorem setStack_groups (s : State) (x : List Entry) : (setStack s x).groups = s.groups := by unfold setStack; split <;> rfl
@[simp] theorem setStack_records (s : State) (x : List Entry) : (setStack s x).records = s.records := by unfold setStack; split <;> rfl
@[simp] theorem setStack_mem (s : State) (x : List Entry) : (setStack s x).mem = s.mem := by unfold setStack; split <;> rfl
@[simp] theorem setStack_ops (s : State) (x : List Entry) : (setStack s x).ops = s.ops := by unfold setStack; split <;> rfl
@[simp] theorem setStack_nextOp (s : State) (x : List Entry) : (setStack s x).nextOp = s.nextOp := by unfold setStack; split <;> rfl
@[simp] theorem setStack_chains (s : State) (x : List Entry) : (setStack s x).chains = s.chains := by unfold setStack; split <;> rfl
@[simp] theorem setStack_held (s : State) (x : List Entry) : (setStack s x).held = s.held := by unfold setStack; split <;> rfl
@[simp] theorem setStack_slots (s : State) (x : List Entry) : (setStack s x).slots = s.slots := by unfold setStack; split <;> rfl
@[simp] theorem setStack_bivTurn (s : State) (x : List Entry) : (setStack s x).bivTurn = s.bivTurn := by unfold setStack; split <;> rfl
@[simp] theorem setStack_xlt (s : State) (x : List Entry) : (setStack s x).xlt = s.xlt := by unfold setStack; split <;> rfl
@[simp] theorem setStack_coh (s : State) (x : List Entry) : (setStack s x).coh = s.coh := by unfold setStack; split <;> rfl
@[simp] theorem setStack_svc (s : State) (x : List Entry) : (setStack s x).svc = s.svc := by unfold setStack; split <;> rfl
@[simp] theorem setStack_ctxs (s : State) (x : List Entry) : (setStack s x).ctxs = s.ctxs := by unfold setStack; split <;> rfl
@[simp] theorem setStack_queues (s : State) (x : List Entry) : (setStack s x).queues = s.queues := by unfold setStack; split <;> rfl
@[simp] theorem setStack_grids (s : State) (x : List Entry) : (setStack s x).grids = s.grids := by unfold setStack; split <;> rfl
@[simp] theorem setStack_fab (s : State) (x : List Entry) : (setStack s x).fab = s.fab := by unfold setStack; split <;> rfl
@[simp] theorem setStack_host (s : State) (x : List Entry) : (setStack s x).host = s.host := by unfold setStack; split <;> rfl
@[simp] theorem setStack_pkg (s : State) (x : List Entry) : (setStack s x).pkg = s.pkg := by unfold setStack; split <;> rfl
@[simp] theorem setStack_time (s : State) (x : List Entry) : (setStack s x).time = s.time := by unfold setStack; split <;> rfl
@[simp] theorem setStack_fresh (s : State) (x : List Entry) : (setStack s x).fresh = s.fresh := by unfold setStack; split <;> rfl
@[simp] theorem setStack_inputs (s : State) (x : List Entry) : (setStack s x).inputs = s.inputs := by unfold setStack; split <;> rfl

@[simp] theorem sset64_w_idx (s : State) (n : Nat) (v : BitVec 64) : (sset64 s n v).w.idx = s.w.idx := by simp [sset64]
@[simp] theorem sset64_w_handle (s : State) (n : Nat) (v : BitVec 64) : (sset64 s n v).w.handle = s.w.handle := by simp [sset64]
@[simp] theorem sset64_w_name (s : State) (n : Nat) (v : BitVec 64) : (sset64 s n v).w.name = s.w.name := by simp [sset64]
@[simp] theorem sset64_w_status (s : State) (n : Nat) (v : BitVec 64) : (sset64 s n v).w.status = s.w.status := by simp [sset64]
@[simp] theorem sset64_w_pc (s : State) (n : Nat) (v : BitVec 64) : (sset64 s n v).w.pc = s.w.pc := by simp [sset64]
@[simp] theorem sset64_w_clause (s : State) (n : Nat) (v : BitVec 64) : (sset64 s n v).w.clause = s.w.clause := by simp [sset64]
@[simp] theorem sset64_w_vreg (s : State) (n : Nat) (v : BitVec 64) : (sset64 s n v).w.vreg = s.w.vreg := by simp [sset64]
@[simp] theorem sset64_w_vblocks (s : State) (n : Nat) (v : BitVec 64) : (sset64 s n v).w.vblocks = s.w.vblocks := by simp [sset64]
@[simp] theorem sset64_w_pred (s : State) (n : Nat) (v : BitVec 64) : (sset64 s n v).w.pred = s.w.pred := by simp [sset64]
@[simp] theorem sset64_w_tile (s : State) (n : Nat) (v : BitVec 64) : (sset64 s n v).w.tile = s.w.tile := by simp [sset64]
@[simp] theorem sset64_w_side (s : State) (n : Nat) (v : BitVec 64) : (sset64 s n v).w.side = s.w.side := by simp [sset64]
@[simp] theorem sset64_w_tiles (s : State) (n : Nat) (v : BitVec 64) : (sset64 s n v).w.tiles = s.w.tiles := by simp [sset64]
@[simp] theorem sset64_w_flag (s : State) (n : Nat) (v : BitVec 64) : (sset64 s n v).w.flag = s.w.flag := by simp [sset64]
@[simp] theorem sset64_w_mode (s : State) (n : Nat) (v : BitVec 64) : (sset64 s n v).w.mode = s.w.mode := by simp [sset64]
@[simp] theorem sset64_w_role (s : State) (n : Nat) (v : BitVec 64) : (sset64 s n v).w.role = s.w.role := by simp [sset64]
@[simp] theorem sset64_w_astat (s : State) (n : Nat) (v : BitVec 64) : (sset64 s n v).w.astat = s.w.astat := by simp [sset64]
@[simp] theorem sset64_w_hmask (s : State) (n : Nat) (v : BitVec 64) : (sset64 s n v).w.hmask = s.w.hmask := by simp [sset64]
@[simp] theorem sset64_w_rand (s : State) (n : Nat) (v : BitVec 64) : (sset64 s n v).w.rand = s.w.rand := by simp [sset64]
@[simp] theorem sset64_w_keys (s : State) (n : Nat) (v : BitVec 64) : (sset64 s n v).w.keys = s.w.keys := by simp [sset64]
@[simp] theorem sset64_w_stack (s : State) (n : Nat) (v : BitVec 64) : (sset64 s n v).w.stack = s.w.stack := by simp [sset64]
@[simp] theorem sset64_w_batches (s : State) (n : Nat) (v : BitVec 64) : (sset64 s n v).w.batches = s.w.batches := by simp [sset64]
@[simp] theorem sset64_w_trap (s : State) (n : Nat) (v : BitVec 64) : (sset64 s n v).w.trap = s.w.trap := by simp [sset64]
@[simp] theorem sset64_w_ejected (s : State) (n : Nat) (v : BitVec 64) : (sset64 s n v).w.ejected = s.w.ejected := by simp [sset64]
@[simp] theorem sset64_w_gone (s : State) (n : Nat) (v : BitVec 64) : (sset64 s n v).w.gone = s.w.gone := by simp [sset64]
@[simp] theorem sset64_w_spill (s : State) (n : Nat) (v : BitVec 64) : (sset64 s n v).w.spill = s.w.spill := by simp [sset64]
@[simp] theorem sset64_w_rejoinSoft (s : State) (n : Nat) (v : BitVec 64) : (sset64 s n v).w.rejoinSoft = s.w.rejoinSoft := by simp [sset64]
@[simp] theorem sset64_w_ksendOverdue (s : State) (n : Nat) (v : BitVec 64) : (sset64 s n v).w.ksendOverdue = s.w.ksendOverdue := by simp [sset64]
@[simp] theorem sset64_w_readsSince (s : State) (n : Nat) (v : BitVec 64) : (sset64 s n v).w.readsSince = s.w.readsSince := by simp [sset64]
@[simp] theorem sset64_w_laneFault (s : State) (n : Nat) (v : BitVec 64) : (sset64 s n v).w.laneFault = s.w.laneFault := by simp [sset64]
@[simp] theorem sset64_w_winTraps (s : State) (n : Nat) (v : BitVec 64) : (sset64 s n v).w.winTraps = s.w.winTraps := by simp [sset64]
@[simp] theorem sset64_w_stackDue (s : State) (n : Nat) (v : BitVec 64) : (sset64 s n v).w.stackDue = s.w.stackDue := by simp [sset64]
@[simp] theorem sset64_w_exitPop (s : State) (n : Nat) (v : BitVec 64) : (sset64 s n v).w.exitPop = s.w.exitPop := by simp [sset64]
@[simp] theorem sset64_w_fell (s : State) (n : Nat) (v : BitVec 64) : (sset64 s n v).w.fell = s.w.fell := by simp [sset64]

@[simp] theorem sset64_lane (s : State) (n : Nat) (v : BitVec 64) : (sset64 s n v).lane = s.lane := by simp [sset64]
@[simp] theorem sset64_g (s : State) (n : Nat) (v : BitVec 64) : (sset64 s n v).g = s.g := by simp [sset64]
@[simp] theorem sset64_groups (s : State) (n : Nat) (v : BitVec 64) : (sset64 s n v).groups = s.groups := by simp [sset64]
@[simp] theorem sset64_records (s : State) (n : Nat) (v : BitVec 64) : (sset64 s n v).records = s.records := by simp [sset64]
@[simp] theorem sset64_mem (s : State) (n : Nat) (v : BitVec 64) : (sset64 s n v).mem = s.mem := by simp [sset64]
@[simp] theorem sset64_ops (s : State) (n : Nat) (v : BitVec 64) : (sset64 s n v).ops = s.ops := by simp [sset64]
@[simp] theorem sset64_nextOp (s : State) (n : Nat) (v : BitVec 64) : (sset64 s n v).nextOp = s.nextOp := by simp [sset64]
@[simp] theorem sset64_chains (s : State) (n : Nat) (v : BitVec 64) : (sset64 s n v).chains = s.chains := by simp [sset64]
@[simp] theorem sset64_held (s : State) (n : Nat) (v : BitVec 64) : (sset64 s n v).held = s.held := by simp [sset64]
@[simp] theorem sset64_slots (s : State) (n : Nat) (v : BitVec 64) : (sset64 s n v).slots = s.slots := by simp [sset64]
@[simp] theorem sset64_bivTurn (s : State) (n : Nat) (v : BitVec 64) : (sset64 s n v).bivTurn = s.bivTurn := by simp [sset64]
@[simp] theorem sset64_xlt (s : State) (n : Nat) (v : BitVec 64) : (sset64 s n v).xlt = s.xlt := by simp [sset64]
@[simp] theorem sset64_coh (s : State) (n : Nat) (v : BitVec 64) : (sset64 s n v).coh = s.coh := by simp [sset64]
@[simp] theorem sset64_svc (s : State) (n : Nat) (v : BitVec 64) : (sset64 s n v).svc = s.svc := by simp [sset64]
@[simp] theorem sset64_ctxs (s : State) (n : Nat) (v : BitVec 64) : (sset64 s n v).ctxs = s.ctxs := by simp [sset64]
@[simp] theorem sset64_queues (s : State) (n : Nat) (v : BitVec 64) : (sset64 s n v).queues = s.queues := by simp [sset64]
@[simp] theorem sset64_grids (s : State) (n : Nat) (v : BitVec 64) : (sset64 s n v).grids = s.grids := by simp [sset64]
@[simp] theorem sset64_fab (s : State) (n : Nat) (v : BitVec 64) : (sset64 s n v).fab = s.fab := by simp [sset64]
@[simp] theorem sset64_host (s : State) (n : Nat) (v : BitVec 64) : (sset64 s n v).host = s.host := by simp [sset64]
@[simp] theorem sset64_pkg (s : State) (n : Nat) (v : BitVec 64) : (sset64 s n v).pkg = s.pkg := by simp [sset64]
@[simp] theorem sset64_time (s : State) (n : Nat) (v : BitVec 64) : (sset64 s n v).time = s.time := by simp [sset64]
@[simp] theorem sset64_fresh (s : State) (n : Nat) (v : BitVec 64) : (sset64 s n v).fresh = s.fresh := by simp [sset64]
@[simp] theorem sset64_inputs (s : State) (n : Nat) (v : BitVec 64) : (sset64 s n v).inputs = s.inputs := by simp [sset64]

@[simp] theorem sput_w_idx (s : State) (n : Nat) (p : Bool) (v : BitVec 64) : (sput s n p v).w.idx = s.w.idx := by unfold sput; split <;> simp
@[simp] theorem sput_w_handle (s : State) (n : Nat) (p : Bool) (v : BitVec 64) : (sput s n p v).w.handle = s.w.handle := by unfold sput; split <;> simp
@[simp] theorem sput_w_name (s : State) (n : Nat) (p : Bool) (v : BitVec 64) : (sput s n p v).w.name = s.w.name := by unfold sput; split <;> simp
@[simp] theorem sput_w_status (s : State) (n : Nat) (p : Bool) (v : BitVec 64) : (sput s n p v).w.status = s.w.status := by unfold sput; split <;> simp
@[simp] theorem sput_w_pc (s : State) (n : Nat) (p : Bool) (v : BitVec 64) : (sput s n p v).w.pc = s.w.pc := by unfold sput; split <;> simp
@[simp] theorem sput_w_clause (s : State) (n : Nat) (p : Bool) (v : BitVec 64) : (sput s n p v).w.clause = s.w.clause := by unfold sput; split <;> simp
@[simp] theorem sput_w_vreg (s : State) (n : Nat) (p : Bool) (v : BitVec 64) : (sput s n p v).w.vreg = s.w.vreg := by unfold sput; split <;> simp
@[simp] theorem sput_w_vblocks (s : State) (n : Nat) (p : Bool) (v : BitVec 64) : (sput s n p v).w.vblocks = s.w.vblocks := by unfold sput; split <;> simp
@[simp] theorem sput_w_pred (s : State) (n : Nat) (p : Bool) (v : BitVec 64) : (sput s n p v).w.pred = s.w.pred := by unfold sput; split <;> simp
@[simp] theorem sput_w_tile (s : State) (n : Nat) (p : Bool) (v : BitVec 64) : (sput s n p v).w.tile = s.w.tile := by unfold sput; split <;> simp
@[simp] theorem sput_w_side (s : State) (n : Nat) (p : Bool) (v : BitVec 64) : (sput s n p v).w.side = s.w.side := by unfold sput; split <;> simp
@[simp] theorem sput_w_tiles (s : State) (n : Nat) (p : Bool) (v : BitVec 64) : (sput s n p v).w.tiles = s.w.tiles := by unfold sput; split <;> simp
@[simp] theorem sput_w_flag (s : State) (n : Nat) (p : Bool) (v : BitVec 64) : (sput s n p v).w.flag = s.w.flag := by unfold sput; split <;> simp
@[simp] theorem sput_w_mode (s : State) (n : Nat) (p : Bool) (v : BitVec 64) : (sput s n p v).w.mode = s.w.mode := by unfold sput; split <;> simp
@[simp] theorem sput_w_role (s : State) (n : Nat) (p : Bool) (v : BitVec 64) : (sput s n p v).w.role = s.w.role := by unfold sput; split <;> simp
@[simp] theorem sput_w_astat (s : State) (n : Nat) (p : Bool) (v : BitVec 64) : (sput s n p v).w.astat = s.w.astat := by unfold sput; split <;> simp
@[simp] theorem sput_w_hmask (s : State) (n : Nat) (p : Bool) (v : BitVec 64) : (sput s n p v).w.hmask = s.w.hmask := by unfold sput; split <;> simp
@[simp] theorem sput_w_rand (s : State) (n : Nat) (p : Bool) (v : BitVec 64) : (sput s n p v).w.rand = s.w.rand := by unfold sput; split <;> simp
@[simp] theorem sput_w_keys (s : State) (n : Nat) (p : Bool) (v : BitVec 64) : (sput s n p v).w.keys = s.w.keys := by unfold sput; split <;> simp
@[simp] theorem sput_w_stack (s : State) (n : Nat) (p : Bool) (v : BitVec 64) : (sput s n p v).w.stack = s.w.stack := by unfold sput; split <;> simp
@[simp] theorem sput_w_batches (s : State) (n : Nat) (p : Bool) (v : BitVec 64) : (sput s n p v).w.batches = s.w.batches := by unfold sput; split <;> simp
@[simp] theorem sput_w_trap (s : State) (n : Nat) (p : Bool) (v : BitVec 64) : (sput s n p v).w.trap = s.w.trap := by unfold sput; split <;> simp
@[simp] theorem sput_w_ejected (s : State) (n : Nat) (p : Bool) (v : BitVec 64) : (sput s n p v).w.ejected = s.w.ejected := by unfold sput; split <;> simp
@[simp] theorem sput_w_gone (s : State) (n : Nat) (p : Bool) (v : BitVec 64) : (sput s n p v).w.gone = s.w.gone := by unfold sput; split <;> simp
@[simp] theorem sput_w_spill (s : State) (n : Nat) (p : Bool) (v : BitVec 64) : (sput s n p v).w.spill = s.w.spill := by unfold sput; split <;> simp
@[simp] theorem sput_w_rejoinSoft (s : State) (n : Nat) (p : Bool) (v : BitVec 64) : (sput s n p v).w.rejoinSoft = s.w.rejoinSoft := by unfold sput; split <;> simp
@[simp] theorem sput_w_ksendOverdue (s : State) (n : Nat) (p : Bool) (v : BitVec 64) : (sput s n p v).w.ksendOverdue = s.w.ksendOverdue := by unfold sput; split <;> simp
@[simp] theorem sput_w_readsSince (s : State) (n : Nat) (p : Bool) (v : BitVec 64) : (sput s n p v).w.readsSince = s.w.readsSince := by unfold sput; split <;> simp
@[simp] theorem sput_w_laneFault (s : State) (n : Nat) (p : Bool) (v : BitVec 64) : (sput s n p v).w.laneFault = s.w.laneFault := by unfold sput; split <;> simp
@[simp] theorem sput_w_winTraps (s : State) (n : Nat) (p : Bool) (v : BitVec 64) : (sput s n p v).w.winTraps = s.w.winTraps := by unfold sput; split <;> simp
@[simp] theorem sput_w_stackDue (s : State) (n : Nat) (p : Bool) (v : BitVec 64) : (sput s n p v).w.stackDue = s.w.stackDue := by unfold sput; split <;> simp
@[simp] theorem sput_w_exitPop (s : State) (n : Nat) (p : Bool) (v : BitVec 64) : (sput s n p v).w.exitPop = s.w.exitPop := by unfold sput; split <;> simp
@[simp] theorem sput_w_fell (s : State) (n : Nat) (p : Bool) (v : BitVec 64) : (sput s n p v).w.fell = s.w.fell := by unfold sput; split <;> simp

@[simp] theorem sput_lane (s : State) (n : Nat) (p : Bool) (v : BitVec 64) : (sput s n p v).lane = s.lane := by unfold sput; split <;> simp
@[simp] theorem sput_g (s : State) (n : Nat) (p : Bool) (v : BitVec 64) : (sput s n p v).g = s.g := by unfold sput; split <;> simp
@[simp] theorem sput_groups (s : State) (n : Nat) (p : Bool) (v : BitVec 64) : (sput s n p v).groups = s.groups := by unfold sput; split <;> simp
@[simp] theorem sput_records (s : State) (n : Nat) (p : Bool) (v : BitVec 64) : (sput s n p v).records = s.records := by unfold sput; split <;> simp
@[simp] theorem sput_mem (s : State) (n : Nat) (p : Bool) (v : BitVec 64) : (sput s n p v).mem = s.mem := by unfold sput; split <;> simp
@[simp] theorem sput_ops (s : State) (n : Nat) (p : Bool) (v : BitVec 64) : (sput s n p v).ops = s.ops := by unfold sput; split <;> simp
@[simp] theorem sput_nextOp (s : State) (n : Nat) (p : Bool) (v : BitVec 64) : (sput s n p v).nextOp = s.nextOp := by unfold sput; split <;> simp
@[simp] theorem sput_chains (s : State) (n : Nat) (p : Bool) (v : BitVec 64) : (sput s n p v).chains = s.chains := by unfold sput; split <;> simp
@[simp] theorem sput_held (s : State) (n : Nat) (p : Bool) (v : BitVec 64) : (sput s n p v).held = s.held := by unfold sput; split <;> simp
@[simp] theorem sput_slots (s : State) (n : Nat) (p : Bool) (v : BitVec 64) : (sput s n p v).slots = s.slots := by unfold sput; split <;> simp
@[simp] theorem sput_bivTurn (s : State) (n : Nat) (p : Bool) (v : BitVec 64) : (sput s n p v).bivTurn = s.bivTurn := by unfold sput; split <;> simp
@[simp] theorem sput_xlt (s : State) (n : Nat) (p : Bool) (v : BitVec 64) : (sput s n p v).xlt = s.xlt := by unfold sput; split <;> simp
@[simp] theorem sput_coh (s : State) (n : Nat) (p : Bool) (v : BitVec 64) : (sput s n p v).coh = s.coh := by unfold sput; split <;> simp
@[simp] theorem sput_svc (s : State) (n : Nat) (p : Bool) (v : BitVec 64) : (sput s n p v).svc = s.svc := by unfold sput; split <;> simp
@[simp] theorem sput_ctxs (s : State) (n : Nat) (p : Bool) (v : BitVec 64) : (sput s n p v).ctxs = s.ctxs := by unfold sput; split <;> simp
@[simp] theorem sput_queues (s : State) (n : Nat) (p : Bool) (v : BitVec 64) : (sput s n p v).queues = s.queues := by unfold sput; split <;> simp
@[simp] theorem sput_grids (s : State) (n : Nat) (p : Bool) (v : BitVec 64) : (sput s n p v).grids = s.grids := by unfold sput; split <;> simp
@[simp] theorem sput_fab (s : State) (n : Nat) (p : Bool) (v : BitVec 64) : (sput s n p v).fab = s.fab := by unfold sput; split <;> simp
@[simp] theorem sput_host (s : State) (n : Nat) (p : Bool) (v : BitVec 64) : (sput s n p v).host = s.host := by unfold sput; split <;> simp
@[simp] theorem sput_pkg (s : State) (n : Nat) (p : Bool) (v : BitVec 64) : (sput s n p v).pkg = s.pkg := by unfold sput; split <;> simp
@[simp] theorem sput_time (s : State) (n : Nat) (p : Bool) (v : BitVec 64) : (sput s n p v).time = s.time := by unfold sput; split <;> simp
@[simp] theorem sput_fresh (s : State) (n : Nat) (p : Bool) (v : BitVec 64) : (sput s n p v).fresh = s.fresh := by unfold sput; split <;> simp
@[simp] theorem sput_inputs (s : State) (n : Nat) (p : Bool) (v : BitVec 64) : (sput s n p v).inputs = s.inputs := by unfold sput; split <;> simp

@[simp] theorem setEm_w_idx (s : State) (m : LaneMask) : (setEm s m).w.idx = s.w.idx := by simp [setEm]
@[simp] theorem setEm_w_handle (s : State) (m : LaneMask) : (setEm s m).w.handle = s.w.handle := by simp [setEm]
@[simp] theorem setEm_w_name (s : State) (m : LaneMask) : (setEm s m).w.name = s.w.name := by simp [setEm]
@[simp] theorem setEm_w_status (s : State) (m : LaneMask) : (setEm s m).w.status = s.w.status := by simp [setEm]
@[simp] theorem setEm_w_pc (s : State) (m : LaneMask) : (setEm s m).w.pc = s.w.pc := by simp [setEm]
@[simp] theorem setEm_w_clause (s : State) (m : LaneMask) : (setEm s m).w.clause = s.w.clause := by simp [setEm]
@[simp] theorem setEm_w_vreg (s : State) (m : LaneMask) : (setEm s m).w.vreg = s.w.vreg := by simp [setEm]
@[simp] theorem setEm_w_vblocks (s : State) (m : LaneMask) : (setEm s m).w.vblocks = s.w.vblocks := by simp [setEm]
@[simp] theorem setEm_w_pred (s : State) (m : LaneMask) : (setEm s m).w.pred = s.w.pred := by simp [setEm]
@[simp] theorem setEm_w_tile (s : State) (m : LaneMask) : (setEm s m).w.tile = s.w.tile := by simp [setEm]
@[simp] theorem setEm_w_side (s : State) (m : LaneMask) : (setEm s m).w.side = s.w.side := by simp [setEm]
@[simp] theorem setEm_w_tiles (s : State) (m : LaneMask) : (setEm s m).w.tiles = s.w.tiles := by simp [setEm]
@[simp] theorem setEm_w_flag (s : State) (m : LaneMask) : (setEm s m).w.flag = s.w.flag := by simp [setEm]
@[simp] theorem setEm_w_mode (s : State) (m : LaneMask) : (setEm s m).w.mode = s.w.mode := by simp [setEm]
@[simp] theorem setEm_w_role (s : State) (m : LaneMask) : (setEm s m).w.role = s.w.role := by simp [setEm]
@[simp] theorem setEm_w_astat (s : State) (m : LaneMask) : (setEm s m).w.astat = s.w.astat := by simp [setEm]
@[simp] theorem setEm_w_hmask (s : State) (m : LaneMask) : (setEm s m).w.hmask = s.w.hmask := by simp [setEm]
@[simp] theorem setEm_w_rand (s : State) (m : LaneMask) : (setEm s m).w.rand = s.w.rand := by simp [setEm]
@[simp] theorem setEm_w_keys (s : State) (m : LaneMask) : (setEm s m).w.keys = s.w.keys := by simp [setEm]
@[simp] theorem setEm_w_stack (s : State) (m : LaneMask) : (setEm s m).w.stack = s.w.stack := by simp [setEm]
@[simp] theorem setEm_w_batches (s : State) (m : LaneMask) : (setEm s m).w.batches = s.w.batches := by simp [setEm]
@[simp] theorem setEm_w_trap (s : State) (m : LaneMask) : (setEm s m).w.trap = s.w.trap := by simp [setEm]
@[simp] theorem setEm_w_ejected (s : State) (m : LaneMask) : (setEm s m).w.ejected = s.w.ejected := by simp [setEm]
@[simp] theorem setEm_w_gone (s : State) (m : LaneMask) : (setEm s m).w.gone = s.w.gone := by simp [setEm]
@[simp] theorem setEm_w_spill (s : State) (m : LaneMask) : (setEm s m).w.spill = s.w.spill := by simp [setEm]
@[simp] theorem setEm_w_rejoinSoft (s : State) (m : LaneMask) : (setEm s m).w.rejoinSoft = s.w.rejoinSoft := by simp [setEm]
@[simp] theorem setEm_w_ksendOverdue (s : State) (m : LaneMask) : (setEm s m).w.ksendOverdue = s.w.ksendOverdue := by simp [setEm]
@[simp] theorem setEm_w_readsSince (s : State) (m : LaneMask) : (setEm s m).w.readsSince = s.w.readsSince := by simp [setEm]
@[simp] theorem setEm_w_laneFault (s : State) (m : LaneMask) : (setEm s m).w.laneFault = s.w.laneFault := by simp [setEm]
@[simp] theorem setEm_w_winTraps (s : State) (m : LaneMask) : (setEm s m).w.winTraps = s.w.winTraps := by simp [setEm]
@[simp] theorem setEm_w_stackDue (s : State) (m : LaneMask) : (setEm s m).w.stackDue = s.w.stackDue := by simp [setEm]
@[simp] theorem setEm_w_exitPop (s : State) (m : LaneMask) : (setEm s m).w.exitPop = s.w.exitPop := by simp [setEm]
@[simp] theorem setEm_w_fell (s : State) (m : LaneMask) : (setEm s m).w.fell = s.w.fell := by simp [setEm]

@[simp] theorem setEm_lane (s : State) (m : LaneMask) : (setEm s m).lane = s.lane := by simp [setEm]
@[simp] theorem setEm_g (s : State) (m : LaneMask) : (setEm s m).g = s.g := by simp [setEm]
@[simp] theorem setEm_groups (s : State) (m : LaneMask) : (setEm s m).groups = s.groups := by simp [setEm]
@[simp] theorem setEm_records (s : State) (m : LaneMask) : (setEm s m).records = s.records := by simp [setEm]
@[simp] theorem setEm_mem (s : State) (m : LaneMask) : (setEm s m).mem = s.mem := by simp [setEm]
@[simp] theorem setEm_ops (s : State) (m : LaneMask) : (setEm s m).ops = s.ops := by simp [setEm]
@[simp] theorem setEm_nextOp (s : State) (m : LaneMask) : (setEm s m).nextOp = s.nextOp := by simp [setEm]
@[simp] theorem setEm_chains (s : State) (m : LaneMask) : (setEm s m).chains = s.chains := by simp [setEm]
@[simp] theorem setEm_held (s : State) (m : LaneMask) : (setEm s m).held = s.held := by simp [setEm]
@[simp] theorem setEm_slots (s : State) (m : LaneMask) : (setEm s m).slots = s.slots := by simp [setEm]
@[simp] theorem setEm_bivTurn (s : State) (m : LaneMask) : (setEm s m).bivTurn = s.bivTurn := by simp [setEm]
@[simp] theorem setEm_xlt (s : State) (m : LaneMask) : (setEm s m).xlt = s.xlt := by simp [setEm]
@[simp] theorem setEm_coh (s : State) (m : LaneMask) : (setEm s m).coh = s.coh := by simp [setEm]
@[simp] theorem setEm_svc (s : State) (m : LaneMask) : (setEm s m).svc = s.svc := by simp [setEm]
@[simp] theorem setEm_ctxs (s : State) (m : LaneMask) : (setEm s m).ctxs = s.ctxs := by simp [setEm]
@[simp] theorem setEm_queues (s : State) (m : LaneMask) : (setEm s m).queues = s.queues := by simp [setEm]
@[simp] theorem setEm_grids (s : State) (m : LaneMask) : (setEm s m).grids = s.grids := by simp [setEm]
@[simp] theorem setEm_fab (s : State) (m : LaneMask) : (setEm s m).fab = s.fab := by simp [setEm]
@[simp] theorem setEm_host (s : State) (m : LaneMask) : (setEm s m).host = s.host := by simp [setEm]
@[simp] theorem setEm_pkg (s : State) (m : LaneMask) : (setEm s m).pkg = s.pkg := by simp [setEm]
@[simp] theorem setEm_time (s : State) (m : LaneMask) : (setEm s m).time = s.time := by simp [setEm]
@[simp] theorem setEm_fresh (s : State) (m : LaneMask) : (setEm s m).fresh = s.fresh := by simp [setEm]
@[simp] theorem setEm_inputs (s : State) (m : LaneMask) : (setEm s m).inputs = s.inputs := by simp [setEm]

@[simp] theorem vset_w_idx (s : State) (n : Nat) (m : LaneMask) (f : Nat → Word) : (vset s n m f).w.idx = s.w.idx := by simp [vset]
@[simp] theorem vset_w_handle (s : State) (n : Nat) (m : LaneMask) (f : Nat → Word) : (vset s n m f).w.handle = s.w.handle := by simp [vset]
@[simp] theorem vset_w_name (s : State) (n : Nat) (m : LaneMask) (f : Nat → Word) : (vset s n m f).w.name = s.w.name := by simp [vset]
@[simp] theorem vset_w_status (s : State) (n : Nat) (m : LaneMask) (f : Nat → Word) : (vset s n m f).w.status = s.w.status := by simp [vset]
@[simp] theorem vset_w_pc (s : State) (n : Nat) (m : LaneMask) (f : Nat → Word) : (vset s n m f).w.pc = s.w.pc := by simp [vset]
@[simp] theorem vset_w_clause (s : State) (n : Nat) (m : LaneMask) (f : Nat → Word) : (vset s n m f).w.clause = s.w.clause := by simp [vset]
@[simp] theorem vset_w_sreg (s : State) (n : Nat) (m : LaneMask) (f : Nat → Word) : (vset s n m f).w.sreg = s.w.sreg := by simp [vset]
@[simp] theorem vset_w_vblocks (s : State) (n : Nat) (m : LaneMask) (f : Nat → Word) : (vset s n m f).w.vblocks = s.w.vblocks := by simp [vset]
@[simp] theorem vset_w_pred (s : State) (n : Nat) (m : LaneMask) (f : Nat → Word) : (vset s n m f).w.pred = s.w.pred := by simp [vset]
@[simp] theorem vset_w_tile (s : State) (n : Nat) (m : LaneMask) (f : Nat → Word) : (vset s n m f).w.tile = s.w.tile := by simp [vset]
@[simp] theorem vset_w_side (s : State) (n : Nat) (m : LaneMask) (f : Nat → Word) : (vset s n m f).w.side = s.w.side := by simp [vset]
@[simp] theorem vset_w_tiles (s : State) (n : Nat) (m : LaneMask) (f : Nat → Word) : (vset s n m f).w.tiles = s.w.tiles := by simp [vset]
@[simp] theorem vset_w_flag (s : State) (n : Nat) (m : LaneMask) (f : Nat → Word) : (vset s n m f).w.flag = s.w.flag := by simp [vset]
@[simp] theorem vset_w_mode (s : State) (n : Nat) (m : LaneMask) (f : Nat → Word) : (vset s n m f).w.mode = s.w.mode := by simp [vset]
@[simp] theorem vset_w_role (s : State) (n : Nat) (m : LaneMask) (f : Nat → Word) : (vset s n m f).w.role = s.w.role := by simp [vset]
@[simp] theorem vset_w_astat (s : State) (n : Nat) (m : LaneMask) (f : Nat → Word) : (vset s n m f).w.astat = s.w.astat := by simp [vset]
@[simp] theorem vset_w_hmask (s : State) (n : Nat) (m : LaneMask) (f : Nat → Word) : (vset s n m f).w.hmask = s.w.hmask := by simp [vset]
@[simp] theorem vset_w_rand (s : State) (n : Nat) (m : LaneMask) (f : Nat → Word) : (vset s n m f).w.rand = s.w.rand := by simp [vset]
@[simp] theorem vset_w_keys (s : State) (n : Nat) (m : LaneMask) (f : Nat → Word) : (vset s n m f).w.keys = s.w.keys := by simp [vset]
@[simp] theorem vset_w_stack (s : State) (n : Nat) (m : LaneMask) (f : Nat → Word) : (vset s n m f).w.stack = s.w.stack := by simp [vset]
@[simp] theorem vset_w_batches (s : State) (n : Nat) (m : LaneMask) (f : Nat → Word) : (vset s n m f).w.batches = s.w.batches := by simp [vset]
@[simp] theorem vset_w_ejected (s : State) (n : Nat) (m : LaneMask) (f : Nat → Word) : (vset s n m f).w.ejected = s.w.ejected := by simp [vset]
@[simp] theorem vset_w_gone (s : State) (n : Nat) (m : LaneMask) (f : Nat → Word) : (vset s n m f).w.gone = s.w.gone := by simp [vset]
@[simp] theorem vset_w_spill (s : State) (n : Nat) (m : LaneMask) (f : Nat → Word) : (vset s n m f).w.spill = s.w.spill := by simp [vset]
@[simp] theorem vset_w_rejoinSoft (s : State) (n : Nat) (m : LaneMask) (f : Nat → Word) : (vset s n m f).w.rejoinSoft = s.w.rejoinSoft := by simp [vset]
@[simp] theorem vset_w_ksendOverdue (s : State) (n : Nat) (m : LaneMask) (f : Nat → Word) : (vset s n m f).w.ksendOverdue = s.w.ksendOverdue := by simp [vset]
@[simp] theorem vset_w_readsSince (s : State) (n : Nat) (m : LaneMask) (f : Nat → Word) : (vset s n m f).w.readsSince = s.w.readsSince := by simp [vset]
@[simp] theorem vset_w_laneFault (s : State) (n : Nat) (m : LaneMask) (f : Nat → Word) : (vset s n m f).w.laneFault = s.w.laneFault := by simp [vset]
@[simp] theorem vset_w_winTraps (s : State) (n : Nat) (m : LaneMask) (f : Nat → Word) : (vset s n m f).w.winTraps = s.w.winTraps := by simp [vset]
@[simp] theorem vset_w_stackDue (s : State) (n : Nat) (m : LaneMask) (f : Nat → Word) : (vset s n m f).w.stackDue = s.w.stackDue := by simp [vset]
@[simp] theorem vset_w_exitPop (s : State) (n : Nat) (m : LaneMask) (f : Nat → Word) : (vset s n m f).w.exitPop = s.w.exitPop := by simp [vset]
@[simp] theorem vset_w_fell (s : State) (n : Nat) (m : LaneMask) (f : Nat → Word) : (vset s n m f).w.fell = s.w.fell := by simp [vset]

@[simp] theorem vset_lane (s : State) (n : Nat) (m : LaneMask) (f : Nat → Word) : (vset s n m f).lane = s.lane := by simp [vset]
@[simp] theorem vset_g (s : State) (n : Nat) (m : LaneMask) (f : Nat → Word) : (vset s n m f).g = s.g := by simp [vset]
@[simp] theorem vset_groups (s : State) (n : Nat) (m : LaneMask) (f : Nat → Word) : (vset s n m f).groups = s.groups := by simp [vset]
@[simp] theorem vset_records (s : State) (n : Nat) (m : LaneMask) (f : Nat → Word) : (vset s n m f).records = s.records := by simp [vset]
@[simp] theorem vset_mem (s : State) (n : Nat) (m : LaneMask) (f : Nat → Word) : (vset s n m f).mem = s.mem := by simp [vset]
@[simp] theorem vset_ops (s : State) (n : Nat) (m : LaneMask) (f : Nat → Word) : (vset s n m f).ops = s.ops := by simp [vset]
@[simp] theorem vset_nextOp (s : State) (n : Nat) (m : LaneMask) (f : Nat → Word) : (vset s n m f).nextOp = s.nextOp := by simp [vset]
@[simp] theorem vset_chains (s : State) (n : Nat) (m : LaneMask) (f : Nat → Word) : (vset s n m f).chains = s.chains := by simp [vset]
@[simp] theorem vset_held (s : State) (n : Nat) (m : LaneMask) (f : Nat → Word) : (vset s n m f).held = s.held := by simp [vset]
@[simp] theorem vset_slots (s : State) (n : Nat) (m : LaneMask) (f : Nat → Word) : (vset s n m f).slots = s.slots := by simp [vset]
@[simp] theorem vset_bivTurn (s : State) (n : Nat) (m : LaneMask) (f : Nat → Word) : (vset s n m f).bivTurn = s.bivTurn := by simp [vset]
@[simp] theorem vset_xlt (s : State) (n : Nat) (m : LaneMask) (f : Nat → Word) : (vset s n m f).xlt = s.xlt := by simp [vset]
@[simp] theorem vset_coh (s : State) (n : Nat) (m : LaneMask) (f : Nat → Word) : (vset s n m f).coh = s.coh := by simp [vset]
@[simp] theorem vset_svc (s : State) (n : Nat) (m : LaneMask) (f : Nat → Word) : (vset s n m f).svc = s.svc := by simp [vset]
@[simp] theorem vset_ctxs (s : State) (n : Nat) (m : LaneMask) (f : Nat → Word) : (vset s n m f).ctxs = s.ctxs := by simp [vset]
@[simp] theorem vset_queues (s : State) (n : Nat) (m : LaneMask) (f : Nat → Word) : (vset s n m f).queues = s.queues := by simp [vset]
@[simp] theorem vset_grids (s : State) (n : Nat) (m : LaneMask) (f : Nat → Word) : (vset s n m f).grids = s.grids := by simp [vset]
@[simp] theorem vset_fab (s : State) (n : Nat) (m : LaneMask) (f : Nat → Word) : (vset s n m f).fab = s.fab := by simp [vset]
@[simp] theorem vset_host (s : State) (n : Nat) (m : LaneMask) (f : Nat → Word) : (vset s n m f).host = s.host := by simp [vset]
@[simp] theorem vset_pkg (s : State) (n : Nat) (m : LaneMask) (f : Nat → Word) : (vset s n m f).pkg = s.pkg := by simp [vset]
@[simp] theorem vset_time (s : State) (n : Nat) (m : LaneMask) (f : Nat → Word) : (vset s n m f).time = s.time := by simp [vset]
@[simp] theorem vset_fresh (s : State) (n : Nat) (m : LaneMask) (f : Nat → Word) : (vset s n m f).fresh = s.fresh := by simp [vset]
@[simp] theorem vset_inputs (s : State) (n : Nat) (m : LaneMask) (f : Nat → Word) : (vset s n m f).inputs = s.inputs := by simp [vset]

/-! ## Contexts and memory -/

@[simp] theorem ctxPut_w (s : State) (c : Nat) (x : Ctx) : (ctxPut s c x).w = s.w := rfl
@[simp] theorem ctxPut_lane (s : State) (c : Nat) (x : Ctx) : (ctxPut s c x).lane = s.lane := rfl
@[simp] theorem ctxPut_g (s : State) (c : Nat) (x : Ctx) : (ctxPut s c x).g = s.g := rfl
@[simp] theorem ctxPut_groups (s : State) (c : Nat) (x : Ctx) : (ctxPut s c x).groups = s.groups := rfl
@[simp] theorem ctxPut_records (s : State) (c : Nat) (x : Ctx) : (ctxPut s c x).records = s.records := rfl
@[simp] theorem ctxPut_mem (s : State) (c : Nat) (x : Ctx) : (ctxPut s c x).mem = s.mem := rfl
@[simp] theorem ctxPut_ops (s : State) (c : Nat) (x : Ctx) : (ctxPut s c x).ops = s.ops := rfl
@[simp] theorem ctxPut_nextOp (s : State) (c : Nat) (x : Ctx) : (ctxPut s c x).nextOp = s.nextOp := rfl
@[simp] theorem ctxPut_chains (s : State) (c : Nat) (x : Ctx) : (ctxPut s c x).chains = s.chains := rfl
@[simp] theorem ctxPut_held (s : State) (c : Nat) (x : Ctx) : (ctxPut s c x).held = s.held := rfl
@[simp] theorem ctxPut_slots (s : State) (c : Nat) (x : Ctx) : (ctxPut s c x).slots = s.slots := rfl
@[simp] theorem ctxPut_bivTurn (s : State) (c : Nat) (x : Ctx) : (ctxPut s c x).bivTurn = s.bivTurn := rfl
@[simp] theorem ctxPut_xlt (s : State) (c : Nat) (x : Ctx) : (ctxPut s c x).xlt = s.xlt := rfl
@[simp] theorem ctxPut_coh (s : State) (c : Nat) (x : Ctx) : (ctxPut s c x).coh = s.coh := rfl
@[simp] theorem ctxPut_svc (s : State) (c : Nat) (x : Ctx) : (ctxPut s c x).svc = s.svc := rfl
@[simp] theorem ctxPut_queues (s : State) (c : Nat) (x : Ctx) : (ctxPut s c x).queues = s.queues := rfl
@[simp] theorem ctxPut_grids (s : State) (c : Nat) (x : Ctx) : (ctxPut s c x).grids = s.grids := rfl
@[simp] theorem ctxPut_fab (s : State) (c : Nat) (x : Ctx) : (ctxPut s c x).fab = s.fab := rfl
@[simp] theorem ctxPut_host (s : State) (c : Nat) (x : Ctx) : (ctxPut s c x).host = s.host := rfl
@[simp] theorem ctxPut_pkg (s : State) (c : Nat) (x : Ctx) : (ctxPut s c x).pkg = s.pkg := rfl
@[simp] theorem ctxPut_time (s : State) (c : Nat) (x : Ctx) : (ctxPut s c x).time = s.time := rfl
@[simp] theorem ctxPut_fresh (s : State) (c : Nat) (x : Ctx) : (ctxPut s c x).fresh = s.fresh := rfl
@[simp] theorem ctxPut_inputs (s : State) (c : Nat) (x : Ctx) : (ctxPut s c x).inputs = s.inputs := rfl

@[simp] theorem memWrite_w (s : State) (cells : List (Nat × Byte)) : (memWrite s cells).w = s.w := rfl
@[simp] theorem memWrite_lane (s : State) (cells : List (Nat × Byte)) : (memWrite s cells).lane = s.lane := rfl
@[simp] theorem memWrite_g (s : State) (cells : List (Nat × Byte)) : (memWrite s cells).g = s.g := rfl
@[simp] theorem memWrite_groups (s : State) (cells : List (Nat × Byte)) : (memWrite s cells).groups = s.groups := rfl
@[simp] theorem memWrite_records (s : State) (cells : List (Nat × Byte)) : (memWrite s cells).records = s.records := rfl
@[simp] theorem memWrite_ops (s : State) (cells : List (Nat × Byte)) : (memWrite s cells).ops = s.ops := rfl
@[simp] theorem memWrite_nextOp (s : State) (cells : List (Nat × Byte)) : (memWrite s cells).nextOp = s.nextOp := rfl
@[simp] theorem memWrite_chains (s : State) (cells : List (Nat × Byte)) : (memWrite s cells).chains = s.chains := rfl
@[simp] theorem memWrite_held (s : State) (cells : List (Nat × Byte)) : (memWrite s cells).held = s.held := rfl
@[simp] theorem memWrite_slots (s : State) (cells : List (Nat × Byte)) : (memWrite s cells).slots = s.slots := rfl
@[simp] theorem memWrite_bivTurn (s : State) (cells : List (Nat × Byte)) : (memWrite s cells).bivTurn = s.bivTurn := rfl
@[simp] theorem memWrite_xlt (s : State) (cells : List (Nat × Byte)) : (memWrite s cells).xlt = s.xlt := rfl
@[simp] theorem memWrite_coh (s : State) (cells : List (Nat × Byte)) : (memWrite s cells).coh = s.coh := rfl
@[simp] theorem memWrite_svc (s : State) (cells : List (Nat × Byte)) : (memWrite s cells).svc = s.svc := rfl
@[simp] theorem memWrite_ctxs (s : State) (cells : List (Nat × Byte)) : (memWrite s cells).ctxs = s.ctxs := rfl
@[simp] theorem memWrite_queues (s : State) (cells : List (Nat × Byte)) : (memWrite s cells).queues = s.queues := rfl
@[simp] theorem memWrite_grids (s : State) (cells : List (Nat × Byte)) : (memWrite s cells).grids = s.grids := rfl
@[simp] theorem memWrite_fab (s : State) (cells : List (Nat × Byte)) : (memWrite s cells).fab = s.fab := rfl
@[simp] theorem memWrite_host (s : State) (cells : List (Nat × Byte)) : (memWrite s cells).host = s.host := rfl
@[simp] theorem memWrite_pkg (s : State) (cells : List (Nat × Byte)) : (memWrite s cells).pkg = s.pkg := rfl
@[simp] theorem memWrite_time (s : State) (cells : List (Nat × Byte)) : (memWrite s cells).time = s.time := rfl
@[simp] theorem memWrite_fresh (s : State) (cells : List (Nat × Byte)) : (memWrite s cells).fresh = s.fresh := rfl
@[simp] theorem memWrite_inputs (s : State) (cells : List (Nat × Byte)) : (memWrite s cells).inputs = s.inputs := rfl

@[simp] theorem poison_w (s : State) (sec : Nat) : (poison s sec).w = s.w := by unfold poison; split <;> rfl
@[simp] theorem poison_lane (s : State) (sec : Nat) : (poison s sec).lane = s.lane := by unfold poison; split <;> rfl
@[simp] theorem poison_g (s : State) (sec : Nat) : (poison s sec).g = s.g := by unfold poison; split <;> rfl
@[simp] theorem poison_groups (s : State) (sec : Nat) : (poison s sec).groups = s.groups := by unfold poison; split <;> rfl
@[simp] theorem poison_records (s : State) (sec : Nat) : (poison s sec).records = s.records := by unfold poison; split <;> rfl
@[simp] theorem poison_ops (s : State) (sec : Nat) : (poison s sec).ops = s.ops := by unfold poison; split <;> rfl
@[simp] theorem poison_nextOp (s : State) (sec : Nat) : (poison s sec).nextOp = s.nextOp := by unfold poison; split <;> rfl
@[simp] theorem poison_chains (s : State) (sec : Nat) : (poison s sec).chains = s.chains := by unfold poison; split <;> rfl
@[simp] theorem poison_held (s : State) (sec : Nat) : (poison s sec).held = s.held := by unfold poison; split <;> rfl
@[simp] theorem poison_slots (s : State) (sec : Nat) : (poison s sec).slots = s.slots := by unfold poison; split <;> rfl
@[simp] theorem poison_bivTurn (s : State) (sec : Nat) : (poison s sec).bivTurn = s.bivTurn := by unfold poison; split <;> rfl
@[simp] theorem poison_xlt (s : State) (sec : Nat) : (poison s sec).xlt = s.xlt := by unfold poison; split <;> rfl
@[simp] theorem poison_coh (s : State) (sec : Nat) : (poison s sec).coh = s.coh := by unfold poison; split <;> rfl
@[simp] theorem poison_svc (s : State) (sec : Nat) : (poison s sec).svc = s.svc := by unfold poison; split <;> rfl
@[simp] theorem poison_ctxs (s : State) (sec : Nat) : (poison s sec).ctxs = s.ctxs := by unfold poison; split <;> rfl
@[simp] theorem poison_queues (s : State) (sec : Nat) : (poison s sec).queues = s.queues := by unfold poison; split <;> rfl
@[simp] theorem poison_grids (s : State) (sec : Nat) : (poison s sec).grids = s.grids := by unfold poison; split <;> rfl
@[simp] theorem poison_fab (s : State) (sec : Nat) : (poison s sec).fab = s.fab := by unfold poison; split <;> rfl
@[simp] theorem poison_host (s : State) (sec : Nat) : (poison s sec).host = s.host := by unfold poison; split <;> rfl
@[simp] theorem poison_pkg (s : State) (sec : Nat) : (poison s sec).pkg = s.pkg := by unfold poison; split <;> rfl
@[simp] theorem poison_time (s : State) (sec : Nat) : (poison s sec).time = s.time := by unfold poison; split <;> rfl
@[simp] theorem poison_fresh (s : State) (sec : Nat) : (poison s sec).fresh = s.fresh := by unfold poison; split <;> rfl
@[simp] theorem poison_inputs (s : State) (sec : Nat) : (poison s sec).inputs = s.inputs := by unfold poison; split <;> rfl

end Sys2Proof.Machine
end

