-- ==== Sys2Proof/Laws/Tab.lean ====
section
/-!
SUPPORT. What tables do: reading after setting, and the canonical form that every table operation keeps.
-/

namespace Sys2Proof.Tab

variable {α : Type}

@[simp] theorem get_nil (d : α) (k : Nat) : get d [] k = d := rfl

theorem get_del (d : α) (t : Tab α) (k j : Nat) : get d (del t k) j = if j = k then d else get d t j := by
  induction t with
  | nil => simp [del, get]
  | cons e t ih =>
    obtain ⟨k', v⟩ := e
    by_cases h : k' = k
    · subst h
      by_cases hj : j = k'
      · subst hj; simpa [del] using ih
      · simp [del, get, ih, hj, Ne.symm hj]
    · by_cases hk : k' = j
      · subst hk; simp [del, get, h]
      · simp [del, get, h, hk, ih]

theorem get_ins (d : α) (t : Tab α) (k : Nat) (v : α) (j : Nat) : get d (ins t k v) j = if j = k then v else get d t j := by
  induction t with
  | nil => by_cases h : k = j <;> simp [ins, get, h, eq_comm]
  | cons e t ih =>
    obtain ⟨k', v'⟩ := e
    unfold ins
    split
    · rename_i h
      by_cases hk : k' = j
      · subst hk; simp [get, Nat.ne_of_lt h]
      · simp [get, hk, ih]
    · split
      · rename_i h; subst h
        by_cases hj : j = k'
        · subst hj; simp [get]
        · simp [get, hj, Ne.symm hj]
      · by_cases hj : j = k
        · subst hj; simp [get]
        · simp [get, hj, Ne.symm hj]

/-- Reading after setting: the key set reads its value, and every other key reads as before. -/
@[simp] theorem get_put [DecidableEq α] (d : α) (t : Tab α) (k : Nat) (v : α) (j : Nat) :
    get d (put d t k v) j = if j = k then v else get d t j := by
  unfold put
  split
  · rename_i h; subst h; exact get_del v t k j
  · exact get_ins d t k v j

theorem get_build [DecidableEq α] (d : α) (f : Nat → α) (i n j : Nat) :
    get d (build d f i n) j = if i ≤ j ∧ j < i + n then f j else d := by
  induction n generalizing i with
  | zero => rw [if_neg (by omega)]; rfl
  | succ n ih =>
    unfold build
    by_cases hf : f i = d
    · rw [if_pos hf, ih]
      by_cases hj : i = j
      · subst hj; simp [hf]
      · by_cases h1 : i + 1 ≤ j ∧ j < i + 1 + n
        · rw [if_pos h1, if_pos (by omega)]
        · rw [if_neg h1, if_neg (by omega)]
    · rw [if_neg hf]
      by_cases hj : i = j
      · subst hj; simp [get]
      · simp only [get, hj, if_false, ih]
        by_cases h1 : i + 1 ≤ j ∧ j < i + 1 + n
        · rw [if_pos h1, if_pos (by omega)]
        · rw [if_neg h1, if_neg (by omega)]

/-- A table of a function reads as the function below its bound, and as the default from there on. -/
@[simp] theorem get_ofFn [DecidableEq α] (d : α) (n : Nat) (f : Nat → α) (j : Nat) :
    get d (ofFn d n f) j = if j < n then f j else d := by
  simp [ofFn, get_build]

/-- A key that no cell sets reads as before. -/
theorem get_putAll_of_notMem [DecidableEq α] (d : α) (cs : List (Nat × α)) (t : Tab α) (j : Nat) (h : ∀ c ∈ cs, c.1 ≠ j) :
    get d (putAll d t cs) j = get d t j := by
  induction cs generalizing t with
  | nil => rfl
  | cons c cs ih =>
    obtain ⟨k, v⟩ := c
    have hk : j ≠ k := fun e => h (k, v) (by simp) e.symm
    rw [putAll, ih _ (fun c hc => h c (by simp [hc])), get_put, if_neg hk]

/-! ## The canonical form -/

theorem wf_cons [DecidableEq α] {d : α} {k : Nat} {v : α} {t : Tab α} :
    wf d ((k, v) :: t) = true ↔ v ≠ d ∧ (∀ e ∈ t, k < e.1) ∧ wf d t = true := by
  simp [wf, and_assoc]

theorem mem_del {t : Tab α} {k : Nat} {e : Nat × α} (h : e ∈ del t k) : e ∈ t := by
  induction t with
  | nil => simp [del] at h
  | cons x t ih =>
    obtain ⟨k', v⟩ := x
    unfold del at h
    split at h
    · exact List.mem_cons_of_mem _ (ih h)
    · rcases List.mem_cons.1 h with h | h
      · simp [h]
      · exact List.mem_cons_of_mem _ (ih h)

theorem mem_ins {t : Tab α} {k : Nat} {v : α} {e : Nat × α} (h : e ∈ ins t k v) : e = (k, v) ∨ e ∈ t := by
  induction t with
  | nil => simpa [ins] using h
  | cons x t ih =>
    obtain ⟨k', v'⟩ := x
    unfold ins at h
    split at h
    · rcases List.mem_cons.1 h with h | h
      · simp [h]
      · rcases ih h with h | h <;> simp [h]
    · split at h
      · rcases List.mem_cons.1 h with h | h <;> simp [h]
      · rcases List.mem_cons.1 h with h | h
        · simp [h]
        · exact .inr h

theorem wf_del [DecidableEq α] {d : α} {t : Tab α} (k : Nat) (h : wf d t = true) : wf d (del t k) = true := by
  induction t with
  | nil => rfl
  | cons x t ih =>
    obtain ⟨k', v⟩ := x
    obtain ⟨hv, hk, ht⟩ := wf_cons.1 h
    unfold del
    split
    · exact ih ht
    · exact wf_cons.2 ⟨hv, fun e he => hk e (mem_del he), ih ht⟩

theorem wf_ins [DecidableEq α] {d : α} {t : Tab α} (k : Nat) {v : α} (hv : v ≠ d) (h : wf d t = true) :
    wf d (ins t k v) = true := by
  induction t with
  | nil => simp [ins, wf, hv]
  | cons x t ih =>
    obtain ⟨k', v'⟩ := x
    obtain ⟨hv', hk, ht⟩ := wf_cons.1 h
    unfold ins
    split
    · rename_i hlt
      refine wf_cons.2 ⟨hv', fun e he => ?_, ih ht⟩
      rcases mem_ins he with rfl | he
      · exact hlt
      · exact hk e he
    · split
      · rename_i hne; subst hne
        exact wf_cons.2 ⟨hv, hk, ht⟩
      · rename_i h1 h2
        refine wf_cons.2 ⟨hv, fun e he => ?_, h⟩
        have hlt : k < k' := by omega
        rcases List.mem_cons.1 he with rfl | he
        · exact hlt
        · exact Nat.lt_trans hlt (hk e he)

/-- Setting a key keeps the canonical form. -/
theorem wf_put [DecidableEq α] {d : α} {t : Tab α} (k : Nat) (v : α) (h : wf d t = true) : wf d (put d t k v) = true := by
  unfold put
  split
  · exact wf_del k h
  · exact wf_ins k ‹_› h

/-- Setting cells keeps the canonical form. -/
theorem wf_putAll [DecidableEq α] {d : α} (cs : List (Nat × α)) {t : Tab α} (h : wf d t = true) :
    wf d (putAll d t cs) = true := by
  induction cs generalizing t with
  | nil => exact h
  | cons c cs ih => exact ih (wf_put _ _ h)

/-- Leaving entries out keeps the canonical form. -/
theorem wf_filter [DecidableEq α] {d : α} (p : Nat × α → Bool) {t : Tab α} (h : wf d t = true) : wf d (t.filter p) = true := by
  induction t with
  | nil => rfl
  | cons x t ih =>
    obtain ⟨k, v⟩ := x
    obtain ⟨hv, hk, ht⟩ := wf_cons.1 h
    rw [List.filter_cons]
    split
    · exact wf_cons.2 ⟨hv, fun e he => hk e (List.mem_filter.1 he).1, ih ht⟩
    · exact ih ht

/-- Setting keys one by one keeps the canonical form. -/
theorem wf_foldl_put [DecidableEq α] {β : Type} {d : α} (xs : List β) (k : Tab α → β → Nat) (v : Tab α → β → α) {t : Tab α}
    (h : wf d t = true) : wf d (xs.foldl (fun t x => put d t (k t x) (v t x)) t) = true := by
  induction xs generalizing t with
  | nil => exact h
  | cons x xs ih => exact ih (wf_put _ _ h)

/-- In canonical form a listed entry is what its key reads as. -/
theorem get_of_mem [DecidableEq α] {d : α} {t : Tab α} (h : wf d t = true) {k : Nat} {v : α} (hm : (k, v) ∈ t) : get d t k = v := by
  induction t with
  | nil => simp at hm
  | cons x t ih =>
    obtain ⟨k', v'⟩ := x
    obtain ⟨_, hk, ht⟩ := wf_cons.1 h
    rcases List.mem_cons.1 hm with e | hm
    · obtain ⟨rfl, rfl⟩ := Prod.mk.inj e; simp [get]
    · have := hk _ hm
      simp only [get, if_neg (Nat.ne_of_lt this), ih ht hm]

/-- Two tables in canonical form that read the same are the same data. -/
theorem eq_of_get_eq [DecidableEq α] {d : α} {t u : Tab α} (ht : wf d t = true) (hu : wf d u = true)
    (h : ∀ k, get d t k = get d u k) : t = u := by
  induction t generalizing u with
  | nil =>
    cases u with
    | nil => rfl
    | cons y u =>
      obtain ⟨k, v⟩ := y
      have := h k
      simp [get] at this
      exact absurd this.symm (wf_cons.1 hu).1
  | cons x t ih =>
    obtain ⟨k, v⟩ := x
    obtain ⟨hv, hk, hwt⟩ := wf_cons.1 ht
    have hout : ∀ {w : Tab α} {j : Nat}, (∀ e ∈ w, j < e.1) → get d w j = d := by
      intro w
      induction w with
      | nil => intros; rfl
      | cons e w iw =>
        intro j hj
        have h1 := hj e (by simp)
        obtain ⟨a, b⟩ := e
        simp only [get, if_neg (Nat.ne_of_gt h1)]
        exact iw (fun e he => hj e (by simp [he]))
    cases u with
    | nil =>
      have := h k
      simp [get] at this
      exact absurd this hv
    | cons y u =>
      obtain ⟨k', v'⟩ := y
      obtain ⟨hv', hk', hwu⟩ := wf_cons.1 hu
      have hkk : k = k' := by
        rcases Nat.lt_trichotomy k k' with hlt | he | hlt
        · have := h k
          simp only [get, if_pos, if_neg (Nat.ne_of_gt hlt)] at this
          rw [hout (fun e he => Nat.lt_trans hlt (hk' e he))] at this
          exact absurd this hv
        · exact he
        · have := h k'
          simp only [get, if_pos, if_neg (Nat.ne_of_gt hlt)] at this
          rw [hout (fun e he => Nat.lt_trans hlt (hk e he))] at this
          exact absurd this.symm hv'
      subst hkk
      have hvv : v = v' := by simpa [get] using h k
      subst hvv
      have : t = u := ih hwt hwu (fun j => by
        by_cases hj : k = j
        · subst hj; rw [hout hk, hout hk']
        · simpa [get, hj] using h j)
      rw [this]

end Sys2Proof.Tab
end

