-- ==== Sys2Proof/Laws/Memory.lean ====
section
/-!
SUPPORT. Memory: reading after writing, and the canonical form that every memory operation keeps (02 R49; 01 R30-R35).
-/

namespace Sys2Proof.Machine

open Sys2Proof

/-! ## Reading after writing -/

/-- A byte that no cell of a write names reads as before. -/
theorem memByte_memWrite_of_notMem (s : State) (cells : List (Nat × Byte)) (a : Nat) (h : ∀ c ∈ cells, c.1 ≠ a) :
    memByte (memWrite s cells) a = memByte s a :=
  Tab.get_putAll_of_notMem 0 cells s.mem.cells a h

/-- The byte of a write of one cell reads back, and every other byte reads as before. -/
theorem memByte_memWrite_one (s : State) (a : Nat) (b : Byte) (x : Nat) :
    memByte (memWrite s [(a, b)]) x = if x = a then b else memByte s x := by
  simp [memByte, memWrite, Tab.putAll]

/-- Giving a sector its poison pattern changes no byte. -/
@[simp] theorem memByte_poison (s : State) (sec a : Nat) : memByte (poison s sec) a = memByte s a := by
  unfold poison; split <;> rfl

/-- A byte of local memory that no cell of a write names reads as before. -/
theorem locByte_locPut_of_notMem (g : Group) (cells : List (Nat × Byte)) (a : Nat) (h : ∀ c ∈ cells, c.1 ≠ a) :
    locByte (locPut g cells) a = locByte g a :=
  Tab.get_putAll_of_notMem 0 cells g.lmem a h

/-! ## The canonical form -/

theorem memory_wf_iff (m : Mem) :
    Memory.wf m = true ↔ Tab.wf 0 m.cells = true ∧ Tab.wf 0 m.dev = true ∧ Tab.wf [] m.stale = true := by
  simp [Memory.wf, and_assoc]

theorem reset_memory_wf : Memory.wf State.reset.mem = true := rfl

theorem devWrite_wf (dev : Tab (BitVec 16)) (cells : List (Nat × Byte)) (h : Tab.wf 0 dev = true) :
    Tab.wf 0 (devWrite dev cells) = true :=
  Tab.wf_foldl_put (sectorsOf cells) (fun _ x => x) (fun t x => devAfter cells x (Tab.get 0 t x)) h

/-- A write of cells keeps the canonical form. -/
theorem memWrite_wf (s : State) (cells : List (Nat × Byte)) (h : Memory.wf s.mem = true) :
    Memory.wf (memWrite s cells).mem = true := by
  obtain ⟨h1, h2, h3⟩ := (memory_wf_iff _).1 h
  exact (memory_wf_iff _).2 ⟨Tab.wf_putAll cells h1, devWrite_wf _ cells h2, h3⟩

theorem memWriteAt_wf (s : State) (a : Nat) (bytes : List Byte) (h : Memory.wf s.mem = true) :
    Memory.wf (memWriteAt s a bytes).mem = true := memWrite_wf s _ h

/-- Poisoning a sector keeps the canonical form. -/
theorem poison_wf (s : State) (sec : Nat) (h : Memory.wf s.mem = true) : Memory.wf (poison s sec).mem = true := by
  obtain ⟨h1, h2, h3⟩ := (memory_wf_iff _).1 h
  unfold poison
  split
  · exact h
  · exact (memory_wf_iff _).2 ⟨h1, Tab.wf_put sec 0xFFFF h2, h3⟩

/-- Poisoning what a trap found to mismatch keeps the canonical form. -/
theorem poisonBad_wf (t : Trap) (s : State) (h : Memory.wf s.mem = true) : Memory.wf (poisonBad t s).mem = true := by
  obtain ⟨h1, h2, h3⟩ := (memory_wf_iff _).1 h
  exact (memory_wf_iff _).2 ⟨h1, Tab.wf_foldl_put t.bad (fun _ a => a) (fun _ _ => 0xFFFF) h2, h3⟩

/-- A line's newest bytes reaching DRAM, or becoming dirty in a cache, keeps the canonical form. -/
theorem writeDram_wf (l : Nat) (s : State) (h : Memory.wf s.mem = true) : Memory.wf (writeDram l s).mem = true := by
  obtain ⟨h1, h2, h3⟩ := (memory_wf_iff _).1 h
  exact (memory_wf_iff _).2 ⟨h1, h2, Tab.wf_put l [] h3⟩

theorem keepDram_wf (l : Nat) (s : State) (h : Memory.wf s.mem = true) : Memory.wf (keepDram l s).mem = true := by
  unfold keepDram
  split
  · obtain ⟨h1, h2, h3⟩ := (memory_wf_iff _).1 h
    exact (memory_wf_iff _).2 ⟨h1, h2, Tab.wf_put l (memBytes s (128 * l) 128) h3⟩
  · exact h

/-- A change of homes renames addresses into a canonical memory, whatever it was. -/
theorem renameMem_wf (f : Nat → Nat) (s : State) : Memory.wf (renameMem f s).mem = true :=
  (memory_wf_iff _).2 ⟨Tab.wf_putAll _ rfl, Tab.wf_putAll _ rfl, Tab.wf_putAll _ rfl⟩

/-- The copy of a home block keeps the canonical form. -/
theorem leaveBlock_wf (src die block : Nat) (s : State) (h : Memory.wf s.mem = true) :
    Memory.wf (leaveBlock src die block s).mem = true := by
  obtain ⟨h1, h2, h3⟩ := (memory_wf_iff _).1 h
  unfold leaveBlock
  simp only
  split
  · exact h
  · exact (memory_wf_iff _).2 ⟨Tab.wf_putAll _ (Tab.wf_filter _ h1), Tab.wf_putAll _ (Tab.wf_filter _ h2), Tab.wf_filter _ h3⟩

/-- What holds of a state and is kept by every turn of a fold holds after it. -/
theorem foldl_keeps {α : Type} (P : State → Prop) (f : State → α → State) (hf : ∀ s x, P s → P (f s x)) :
    ∀ (xs : List α) (s : State), P s → P (xs.foldl f s)
  | [], _, h => h
  | x :: xs, s, h => foldl_keeps P f hf xs (f s x) (hf s x h)

theorem putPiece_wf (a n : Nat) (bytes : List (Nat × Byte)) (s : State) (h : Memory.wf s.mem = true) :
    Memory.wf (putPiece a n bytes s).mem = true := by
  obtain ⟨h1, h2, h3⟩ := (memory_wf_iff _).1 h
  exact (memory_wf_iff _).2 ⟨Tab.wf_putAll _ (Tab.wf_filter _ h1), Tab.wf_filter _ h2, h3⟩

/-- A part of a state written to a phase record keeps the canonical form. -/
theorem putRegion_wf (a n : Nat) (bytes : List (Nat × Byte)) (s : State) (h : Memory.wf s.mem = true) :
    Memory.wf (putRegion a n bytes s).mem = true :=
  foldl_keeps (fun t => Memory.wf t.mem = true) _ (fun t _ ht => putPiece_wf _ _ _ t ht) _ s h

/-- The check values of saved local memory keep the canonical form. -/
theorem putLocalDev_wf (a n : Nat) (dev : Tab (BitVec 16)) (s : State) (h : Memory.wf s.mem = true) :
    Memory.wf (putLocalDev a n dev s).mem = true := by
  obtain ⟨h1, h2, h3⟩ := (memory_wf_iff _).1 h
  exact (memory_wf_iff _).2 ⟨h1, Tab.wf_putAll _ h2, h3⟩

/-- Another module number leaves a canonical memory, whatever it was. -/
theorem renumber_wf (n : Nat) (s : State) : Memory.wf (renumber n s).mem = true :=
  (memory_wf_iff _).2 ⟨Tab.wf_putAll _ rfl, Tab.wf_putAll _ rfl, Tab.wf_putAll _ rfl⟩

/-- Poisoning a lost line keeps the canonical form. -/
theorem poisonLine_wf (l : Nat) (s : State) (h : Memory.wf s.mem = true) : Memory.wf (poisonLine l s).mem = true := by
  unfold poisonLine
  simp only [List.foldl, List.range, List.range.loop]
  refine poison_wf _ _ (poison_wf _ _ (poison_wf _ _ (poison_wf _ _ ?_)))
  split
  · exact h
  · obtain ⟨h1, h2, h3⟩ := (memory_wf_iff _).1 h
    exact (memory_wf_iff _).2 ⟨Tab.wf_putAll _ h1, h2, Tab.wf_put l [] h3⟩

/-- The deviation that a copied sector takes keeps the canonical form. -/
theorem sendDev_wf (p : Nat × BitVec 16) (s : State) (h : Memory.wf s.mem = true) : Memory.wf (sendDev p s).mem = true := by
  obtain ⟨h1, h2, h3⟩ := (memory_wf_iff _).1 h
  unfold sendDev
  simp only
  split
  · exact h
  · split
    · split
      · exact h
      · exact h
    · exact (memory_wf_iff _).2 ⟨h1, Tab.wf_put _ _ h2, h3⟩

/-! ## What leaves memory alone -/

/-- Trap entry leaves memory alone. -/
theorem trapEntry_mem (s : State) (t : Trap) : (trapEntry s t).mem = s.mem := by
  rw [trapEntry, goto_mem, setEm_mem]

/-- Memory after a trap: the sectors that met a mismatch are poisoned, and nothing else (04 R116, R117; 01 R33). -/
theorem takeTrap_mem (t : Trap) (s : State) : (takeTrap t s).mem = (poisonBad t s).mem := by
  unfold takeTrap raiseTrap
  split
  · rfl
  · split
    · rfl
    · split
      · rfl
      · exact trapEntry_mem _ _

/-- Taking a trap changes no byte of global memory. -/
theorem memByte_takeTrap (t : Trap) (s : State) (a : Nat) : memByte (takeTrap t s) a = memByte s a := by
  unfold memByte; rw [takeTrap_mem]; rfl

/-- A return from a trap changes no byte of memory. -/
theorem memByte_trapReturn (s : State) (a : Nat) : memByte (trapReturn s) a = memByte s a := by
  unfold memByte; rw [trapReturn, goto_mem, setEm_mem]

/-- Taking a trap keeps the canonical form. -/
theorem takeTrap_wf (t : Trap) (s : State) (h : Memory.wf s.mem = true) : Memory.wf (takeTrap t s).mem = true := by
  rw [takeTrap_mem]; exact poisonBad_wf t s h

end Sys2Proof.Machine
end

