-- ==== Sys2Proof/Laws/Coherence.lean ====
section
/-!
SUPPORT. What the operations of the caches and directories can do: they change the coherence state, and which bytes DRAM
still holds of lines dirty in a cache; nothing else of the machine, no byte of memory and no check value.
-/

namespace Sys2Proof.Machine

open Sys2Proof

/-- t is s but for the coherence state and the stale bytes of DRAM, which stay in canonical form. -/
def CachesOnly (s t : State) : Prop :=
  t = { s with coh := t.coh, mem := { s.mem with stale := t.mem.stale } } ∧
    (Tab.wf [] s.mem.stale = true → Tab.wf [] t.mem.stale = true)

theorem CachesOnly.refl (s : State) : CachesOnly s s := ⟨rfl, id⟩

theorem CachesOnly.trans {s t u : State} (a : CachesOnly s t) (b : CachesOnly t u) : CachesOnly s u := by
  refine ⟨?_, fun h => b.2 (a.2 h)⟩
  have ha := a.1
  rw [b.1, ha]

theorem CachesOnly.memByte_eq {s t : State} (h : CachesOnly s t) (a : Nat) : memByte t a = memByte s a := by
  rw [h.1]; rfl

theorem CachesOnly.sectorDev_eq {s t : State} (h : CachesOnly s t) (a : Nat) : sectorDev t a = sectorDev s a := by
  rw [h.1]; rfl

theorem CachesOnly.w_eq {s t : State} (h : CachesOnly s t) : t.w = s.w := by rw [h.1]

theorem CachesOnly.memory_wf {s t : State} (h : CachesOnly s t) (w : Memory.wf s.mem = true) : Memory.wf t.mem = true := by
  have ⟨hc, hd, hs⟩ := (memory_wf_iff _).1 w
  refine (memory_wf_iff _).2 ⟨?_, ?_, h.2 hs⟩
  · rw [h.1]; exact hc
  · rw [h.1]; exact hd

theorem CachesOnly.foldl {α : Type} (f : State → α → State) (hf : ∀ s x, CachesOnly s (f s x)) :
    ∀ (xs : List α) (s : State), CachesOnly s (xs.foldl f s)
  | [], s => .refl s
  | x :: xs, s => (hf s x).trans (CachesOnly.foldl f hf xs (f s x))

/-- An operation on the coherence state alone. -/
theorem CachesOnly.coh (s : State) (c : Coh) : CachesOnly s { s with coh := c } := ⟨rfl, id⟩

theorem cachesOnly_l1Put (d c l : Nat) (st : Option L1State) (s : State) : CachesOnly s (l1Put d c l st s) := .coh _ _
theorem cachesOnly_l1Sectors (d c l : Nat) (m : BitVec 4) (s : State) : CachesOnly s (l1Sectors d c l m s) := .coh _ _
theorem cachesOnly_l1States (d l : Nat) (f : L1State → L1State) (s : State) : CachesOnly s (l1States d l f s) := .coh _ _
theorem cachesOnly_l2Put (x : L2Line) (s : State) : CachesOnly s (l2Put x s) := .coh _ _
theorem cachesOnly_l2Mod (d l : Nat) (f : L2Line → L2Line) (s : State) : CachesOnly s (l2Mod d l f s) := .coh _ _
theorem cachesOnly_dropL1s (d l : Nat) (s : State) : CachesOnly s (dropL1s d l s) := .coh _ _
theorem cachesOnly_dropL1sBut (d : Nat) (c : Option Nat) (l : Nat) (s : State) : CachesOnly s (dropL1sBut d c l s) := .coh _ _
theorem cachesOnly_dropDie (d l : Nat) (s : State) : CachesOnly s (dropDie d l s) := .coh _ _
theorem cachesOnly_homePut (e : HomeEntry) (s : State) : CachesOnly s (homePut e s) := .coh _ _
theorem cachesOnly_proxyPut (l : Nat) (p : ProxyLine) (s : State) : CachesOnly s (proxyPut l p s) := .coh _ _
theorem cachesOnly_wakeMonitors (l : Nat) (s : State) : CachesOnly s (wakeMonitors l s) := .coh _ _

theorem cachesOnly_writeDram (l : Nat) (s : State) : CachesOnly s (writeDram l s) := ⟨rfl, fun h => Tab.wf_put l [] h⟩

theorem cachesOnly_keepDram (l : Nat) (s : State) : CachesOnly s (keepDram l s) := by
  unfold keepDram
  split
  · exact ⟨rfl, fun h => Tab.wf_put l (memBytes s (128 * l) 128) h⟩
  · exact .refl s

theorem cachesOnly_mcacheUse (q : BitVec 64) (c l : Nat) (w : Bool) (s : State) : CachesOnly s (mcacheUse q c l w s) := by
  unfold mcacheUse
  split
  · exact .refl s
  · exact .coh _ _

/-! ## At the home and the proxy -/

theorem cachesOnly_ownerAnswers (d l : Nat) (s : State) : CachesOnly s (ownerAnswers d l s) := by
  unfold ownerAnswers
  repeat' split
  · exact .refl s
  · exact .refl s
  · exact (cachesOnly_l2Mod d l _ s).trans (cachesOnly_l1States d l _ _)
  · exact cachesOnly_l1States d l _ s

theorem cachesOnly_demoteDie (d l : Nat) (s : State) : CachesOnly s (demoteDie d l s) :=
  (cachesOnly_l2Mod d l _ s).trans (cachesOnly_ownerAnswers d l _)

theorem cachesOnly_homeReadBy (a l : Nat) (s : State) : CachesOnly s (homeReadBy a l s) := by
  simp only [homeReadBy]
  repeat' split
  all_goals
    first
    | exact .refl s
    | exact cachesOnly_homePut _ _
    | exact (cachesOnly_writeDram l s).trans (cachesOnly_homePut _ _)
    | exact (cachesOnly_demoteDie _ l s).trans (cachesOnly_homePut _ _)

theorem cachesOnly_homeLook (l : Nat) (s : State) : CachesOnly s (homeLook l s) := by
  simp only [homeLook]
  repeat' split
  all_goals
    first
    | exact .refl s
    | exact (cachesOnly_writeDram l s).trans (cachesOnly_homePut _ _)
    | exact (cachesOnly_demoteDie _ l s).trans (cachesOnly_homePut _ _)

theorem cachesOnly_invalidateOthers (a l : Nat) (s : State) : CachesOnly s (invalidateOthers a l s) :=
  .foldl _ (fun t d => by
    split
    · exact .refl t
    · exact cachesOnly_dropDie d l t) _ s

theorem cachesOnly_homeOwnBy (a l : Nat) (s : State) : CachesOnly s (homeOwnBy a l s) :=
  ((cachesOnly_invalidateOthers a l s).trans (cachesOnly_wakeMonitors _ _)).trans (cachesOnly_homePut _ _)

theorem cachesOnly_homeCleanBy (a l : Nat) (s : State) : CachesOnly s (homeCleanBy a l s) := by
  simp only [homeCleanBy]
  repeat' split
  all_goals first | exact .refl s | exact cachesOnly_homePut _ _

theorem cachesOnly_homeWritebackBy (a l : Nat) (s : State) : CachesOnly s (homeWritebackBy a l s) := by
  simp only [homeWritebackBy]
  split
  · exact ((cachesOnly_writeDram l s).trans (cachesOnly_wakeMonitors _ _)).trans (cachesOnly_homePut _ _)
  · exact .refl s

theorem cachesOnly_proxyDemote (l : Nat) (s : State) : CachesOnly s (proxyDemote l s) := by
  simp only [proxyDemote]
  split
  · exact ((CachesOnly.foldl _ (fun t d => (cachesOnly_l2Mod d l _ t).trans (cachesOnly_l1States d l _ _)) _ s).trans
      (cachesOnly_writeDram l _)).trans (cachesOnly_proxyPut l _ _)
  · exact .refl s

theorem cachesOnly_proxyRead (d l : Nat) (s : State) : CachesOnly s (proxyRead d l s) := by
  simp only [proxyRead]
  split
  · exact (cachesOnly_proxyDemote l s).trans (cachesOnly_proxyPut l _ _)
  · exact cachesOnly_proxyPut l _ s

theorem cachesOnly_proxyOwn (d l : Nat) (s : State) : CachesOnly s (proxyOwn d l s) :=
  ((cachesOnly_invalidateOthers d l s).trans (cachesOnly_wakeMonitors l _)).trans (cachesOnly_proxyPut l _ _)

theorem cachesOnly_proxyLeave (b : Bool) (d l : Nat) (s : State) : CachesOnly s (proxyLeave b d l s) := by
  simp only [proxyLeave]
  split
  · exact ((cachesOnly_writeDram l s).trans (cachesOnly_wakeMonitors l _)).trans (cachesOnly_proxyPut l _ _)
  · exact cachesOnly_proxyPut l _ s

theorem cachesOnly_homeRead (d l : Nat) (s : State) : CachesOnly s (homeRead d l s) := by
  unfold homeRead; split
  · exact cachesOnly_homeReadBy d l s
  · exact cachesOnly_proxyRead d l s

theorem cachesOnly_homeOwn (d l : Nat) (s : State) : CachesOnly s (homeOwn d l s) := by
  unfold homeOwn; split
  · exact cachesOnly_homeOwnBy d l s
  · exact cachesOnly_proxyOwn d l s

theorem cachesOnly_homeClean (d l : Nat) (s : State) : CachesOnly s (homeClean d l s) := by
  unfold homeClean; split
  · exact cachesOnly_homeCleanBy d l s
  · exact cachesOnly_proxyLeave false d l s

theorem cachesOnly_homeWriteback (d l : Nat) (s : State) : CachesOnly s (homeWriteback d l s) := by
  unfold homeWriteback; split
  · exact cachesOnly_homeWritebackBy d l s
  · exact cachesOnly_proxyLeave true d l s

/-! ## In the slice -/

theorem cachesOnly_dieOwn (d l : Nat) (s : State) : CachesOnly s (dieOwn d l s) := by
  simp only [dieOwn]
  split
  · exact .refl s
  · exact cachesOnly_homeOwn d l s

theorem cachesOnly_sliceServe (d c l : Nat) (s : State) : CachesOnly s (sliceServe d c l s) := by
  simp only [sliceServe]
  repeat' split
  all_goals
    first
    | exact ((cachesOnly_l2Put _ _).trans (cachesOnly_l1Put _ _ _ _ _)).trans (cachesOnly_l1Put _ _ _ _ _)
    | exact (cachesOnly_l2Put _ _).trans (cachesOnly_l1Put _ _ _ _ _)

theorem cachesOnly_l1Notice (d c l : Nat) (s : State) : CachesOnly s (l1Notice d c l s) :=
  (cachesOnly_l1Put _ _ _ _ s).trans (cachesOnly_l2Mod _ _ _ _)

theorem cachesOnly_l1ReturnIn : ∀ (n d c l : Nat) (s : State), CachesOnly s (l1ReturnIn n d c l s)
  | 0, d, c, l, s => (cachesOnly_l1Put d c l none s).trans (cachesOnly_l2Mod d l _ _)
  | n + 1, d, c, l, s => by
    have h (f : L2Line → L2Line) := (cachesOnly_l1Put d c l none s).trans (cachesOnly_l2Mod d l f _)
    simp only [l1ReturnIn]
    split
    · exact h _
    · refine (CachesOnly.trans ?_ (cachesOnly_sliceServe d _ l _)).trans (cachesOnly_l1Sectors d _ l _ _)
      repeat' split
      · exact h _
      · exact (h _).trans (cachesOnly_l1ReturnIn n d _ _ _)
      · exact (h _).trans (cachesOnly_l1Notice d _ _ _)

theorem cachesOnly_l1Return (d c l : Nat) (s : State) : CachesOnly s (l1Return d c l s) := cachesOnly_l1ReturnIn _ d c l s

theorem cachesOnly_l1Room (d c l : Nat) (s : State) : CachesOnly s (l1Room d c l s) := by
  simp only [l1Room]
  repeat' split
  all_goals first | exact .refl s | exact cachesOnly_l1Return _ _ _ s | exact cachesOnly_l1Notice _ _ _ s

theorem cachesOnly_sliceRead (d c l : Nat) (s : State) : CachesOnly s (sliceRead d c l s) :=
  (cachesOnly_l1Room d c l s).trans (cachesOnly_sliceServe d c l _)

theorem cachesOnly_leaveDie (d l : Nat) (s : State) : CachesOnly s (leaveDie d l s) := by
  unfold leaveDie
  split
  · exact ((cachesOnly_dropDie d l s).trans (cachesOnly_mcacheUse _ _ _ _ _)).trans (cachesOnly_homeWriteback d l _)
  · exact (cachesOnly_dropDie d l s).trans (cachesOnly_homeClean d l _)

theorem cachesOnly_endEvict (d l : Nat) (s : State) : CachesOnly s (endEvict d l s) :=
  (cachesOnly_l2Mod d l _ s).trans (cachesOnly_leaveDie d l _)

theorem cachesOnly_evict (d l : Nat) (s : State) : CachesOnly s (evict d l s) := by
  simp only [evict]
  split
  · exact cachesOnly_endEvict _ _ s
  · exact cachesOnly_l2Mod _ _ _ s

theorem cachesOnly_l2Room (d c l : Nat) (s : State) : CachesOnly s (l2Room d c l s) := by
  unfold l2Room
  repeat' split
  all_goals first | exact .refl s | exact cachesOnly_evict _ _ s

theorem cachesOnly_l2Allocate (d c l : Nat) (s : State) : CachesOnly s (l2Allocate d c l s) := by
  simp only [l2Allocate]
  repeat' split
  · exact (cachesOnly_l2Room d c l s).trans (cachesOnly_mcacheUse _ _ _ _ _)
  · exact cachesOnly_l2Room d c l s
  · exact .refl s

theorem cachesOnly_l2Fill (d c l : Nat) (s : State) : CachesOnly s (l2Fill d c l s) := by
  simp only [l2Fill]
  split
  · exact ((cachesOnly_l2Allocate d c l s).trans (cachesOnly_homeRead d l _)).trans (cachesOnly_l2Mod d l _ _)
  · exact .refl s

theorem cachesOnly_finishTxn (d l : Nat) (x : Txn) (s : State) : CachesOnly s (finishTxn d l x s) := by
  have h (f : L2Line → L2Line) : CachesOnly s (l2Mod d l f (keepDram l (dieOwn d l (l2Allocate d 0 l s)))) :=
    (((cachesOnly_l2Allocate d 0 l s).trans (cachesOnly_dieOwn d l _)).trans (cachesOnly_keepDram l _)).trans (cachesOnly_l2Mod d l f _)
  simp only [finishTxn]
  repeat' split
  · exact cachesOnly_endEvict d l s
  · exact cachesOnly_l2Mod d l _ s
  · exact (((h _).trans (cachesOnly_l1Room _ _ _ _)).trans (cachesOnly_l1Put _ _ _ _ _)).trans (cachesOnly_l1Sectors _ _ _ _ _)
  · exact h _

theorem cachesOnly_startTxn (d l : Nat) (x : Txn) (s : State) : CachesOnly s (startTxn d l x s) := by
  unfold startTxn
  split
  · exact cachesOnly_finishTxn d l x s
  · exact cachesOnly_l2Mod _ _ _ s

/-! ## Accesses: a fill of the L2, a read and a write served whole, and one that may have to wait, change caches alone -/

theorem cachesOnly_readSlice (d c l : Nat) (s : State) : CachesOnly s (readSlice d c l s) :=
  ((cachesOnly_l2Fill d c l s).trans (cachesOnly_ownerAnswers d l _)).trans (cachesOnly_l2Mod d l _ _)

theorem cachesOnly_pinLine (d c l : Nat) (s : State) : CachesOnly s (pinLine d c l s) :=
  (cachesOnly_readSlice d c l s).trans (cachesOnly_l2Mod d l _ _)

theorem cachesOnly_readLine (d : Nat) (core : Option Nat) (c l : Nat) (s : State) : CachesOnly s (readLine d core c l s) := by
  unfold readLine
  split
  · exact cachesOnly_readSlice d c l s
  · split
    · exact cachesOnly_l1Put _ _ _ _ s
    · exact (cachesOnly_l2Fill d c l s).trans (cachesOnly_sliceRead _ _ _ _)

theorem cachesOnly_prefetchLine (d core c l : Nat) (s : State) : CachesOnly s (prefetchLine d core c l s) := by
  have h := cachesOnly_l2Fill d c l s
  simp only [prefetchLine]
  repeat' split
  · exact h
  · exact (h.trans (cachesOnly_sliceRead _ _ _ _)).trans (cachesOnly_l1Sectors _ _ _ _ _)
  · exact (((h.trans (cachesOnly_l1Room _ _ _ _)).trans (cachesOnly_l2Mod _ _ _ _)).trans (cachesOnly_l1Put _ _ _ _ _)).trans
      (cachesOnly_l1Sectors _ _ _ _ _)

theorem cachesOnly_ownLineFor (d : Nat) (core : Option Nat) (c l : Nat) (s : State) : CachesOnly s (ownLineFor d core c l s) := by
  have h : CachesOnly s (dropL1sBut d core l (keepDram l (dieOwn d l (l2Allocate d c l s)))) :=
    (((cachesOnly_l2Allocate d c l s).trans (cachesOnly_dieOwn d l _)).trans (cachesOnly_keepDram l _)).trans
      (cachesOnly_dropL1sBut d core l _)
  simp only [ownLineFor]
  split <;> split
  · exact cachesOnly_keepDram l s
  · exact h.trans (cachesOnly_l2Mod d l _ _)
  · exact ((cachesOnly_keepDram l s).trans (cachesOnly_l1Room d _ l _)).trans (cachesOnly_l1Put d _ l _ _)
  · exact ((h.trans (cachesOnly_l2Mod d l _ _)).trans (cachesOnly_l1Room d _ l _)).trans (cachesOnly_l1Put d _ l _ _)

theorem cachesOnly_uncachedRead (l : Nat) (s : State) : CachesOnly s (uncachedRead l s) := by
  have h := cachesOnly_invalidateOthers 99 l s
  simp only [uncachedRead]
  split
  · exact (h.trans (cachesOnly_homePut _ _)).trans (cachesOnly_writeDram l _)
  · exact (h.trans (cachesOnly_proxyPut _ _ _)).trans (cachesOnly_writeDram l _)

theorem cachesOnly_uncachedWrite (l : Nat) (s : State) : CachesOnly s (uncachedWrite l s) :=
  (cachesOnly_uncachedRead l s).trans (cachesOnly_wakeMonitors l _)

theorem cachesOnly_needSectors (d : Nat) (core : Option Nat) (as : List Nat) (l : Nat) (s : State) :
    CachesOnly s (needSectors d core as l s) := by
  unfold needSectors; split
  · exact .refl s
  · exact cachesOnly_l1Sectors _ _ _ _ s

theorem cachesOnly_readServed {d : Nat} {core : Option Nat} {c : Nat} {as : List Nat} {l : Nat} {s t : State}
    (h : readServed d core c as l s = some t) : CachesOnly s t := by
  unfold readServed at h
  split at h
  · cases h; exact (cachesOnly_readLine _ _ _ _ s).trans (cachesOnly_needSectors _ _ _ _ _)
  · cases h

theorem cachesOnly_writeServed {d : Nat} {core : Option Nat} {c : Nat} {as : List Nat} {l : Nat} {s t : State}
    (h : writeServed d core c as l s = some t) : CachesOnly s t := by
  unfold writeServed at h
  split at h
  · cases h; exact (cachesOnly_ownLineFor _ _ _ _ s).trans (cachesOnly_needSectors _ _ _ _ _)
  · cases h

theorem cachesOnly_uncachedReadServed {d c l : Nat} {s t : State} (h : uncachedReadServed d c l s = some t) : CachesOnly s t := by
  unfold uncachedReadServed at h
  split at h
  · cases h; exact (cachesOnly_uncachedRead l s).trans (cachesOnly_mcacheUse _ _ _ _ _)
  · cases h

theorem cachesOnly_uncachedWriteServed {d c l : Nat} {s t : State} (h : uncachedWriteServed d c l s = some t) : CachesOnly s t := by
  unfold uncachedWriteServed at h
  split at h
  · cases h; exact (cachesOnly_uncachedWrite l s).trans (cachesOnly_mcacheUse _ _ _ _ _)
  · cases h

theorem cachesOnly_serveAll {f : Nat → State → Option State} (hf : ∀ l s t, f l s = some t → CachesOnly s t) :
    ∀ (ls : List Nat) (s t : State), serveAll f ls s = some t → CachesOnly s t
  | [], s, t, h => by cases h; exact .refl s
  | l :: ls, s, t, h => by
    simp only [serveAll, List.foldlM_cons, Option.bind_eq_bind, Option.bind_eq_some_iff] at h
    obtain ⟨u, hu, ht⟩ := h
    exact (hf l s u hu).trans (cachesOnly_serveAll hf ls u t ht)

theorem cachesOnly_agentServed {write : Bool} {unc : List Nat} {cls : Nat → Nat} {as : List Nat} {s t : State}
    (h : agentServed write unc cls as s = some t) : CachesOnly s t := by
  refine cachesOnly_serveAll (fun l u v hu => ?_) _ s t h
  cases write <;> simp only [Bool.false_eq_true, if_false, if_true] at hu <;> split at hu
  · exact cachesOnly_uncachedReadServed hu
  · exact cachesOnly_readServed hu
  · exact cachesOnly_uncachedWriteServed hu
  · exact cachesOnly_writeServed hu

/-- The fills of a load and the ownership taken by a write change caches alone. -/
theorem cachesOnly_fillFor {s t : State} {o : Op} {as : List Nat} (h : fillFor s o as = some t) : CachesOnly s t := by
  unfold fillFor at h
  split at h
  · cases h
  · refine cachesOnly_serveAll (fun l u v hu => ?_) _ s t h
    simp only at hu
    split at hu
    · exact cachesOnly_uncachedReadServed hu
    · exact cachesOnly_readServed hu

/-- The reads of operands by the state-space unit change caches alone. -/
theorem cachesOnly_steepFill {s t : State} {o : Op} {as : List Nat} (h : steepFill o as s = some t) : CachesOnly s t := by
  unfold steepFill at h
  split at h
  · cases h
  · refine cachesOnly_serveAll (fun l u v hu => ?_) _ s t h
    unfold steepServed at hu
    simp only at hu
    split at hu
    · exact cachesOnly_uncachedReadServed hu
    · split at hu
      · cases hu; exact (cachesOnly_pinLine _ _ _ _).trans (cachesOnly_l2Mod _ _ _ _)
      · cases hu

theorem cachesOnly_writeFor {s t : State} {o : Op} {as : List Nat} (h : writeFor s o as = some t) : CachesOnly s t := by
  unfold writeFor at h
  split at h
  · cases h
  · refine cachesOnly_serveAll (fun l u v hu => ?_) _ s t h
    simp only at hu
    split at hu
    · exact cachesOnly_uncachedWriteServed hu
    · exact cachesOnly_writeServed hu

end Sys2Proof.Machine
end

