-- ==== Sys2Proof/Laws/Regs.lean ====
section
/-!
SUPPORT. Reading registers after writing them (05 R127, R130, R134-R136).
-/

namespace Sys2Proof.Machine

open Sys2Proof

/-! ## Scalar registers -/

/-- s63 reads zero. -/
@[simp] theorem sget_63 (s : State) : sget s 63 = 0 := rfl

/-- Everything that a write of a scalar register can do: only sreg changes. -/
theorem sset_frame (s : State) (n : Nat) (v : Word) :
    sset s n v = { s with w := { s.w with sreg := (sset s n v).w.sreg } } := by
  unfold sset; split
  · rfl
  · split <;> rfl

/-- A scalar register after a write: s63 ignores it, and s60 to s62 keep the bits of ejected lanes zero. -/
theorem sget_sset (s : State) (n : Nat) (v : Word) (k : Nat) :
    sget (sset s n v) k =
      if k = n then (if n = 63 then 0 else if 60 ≤ n then v &&& ~~~(maskWord (ejectedMask s.w) (n - 60)) else v)
      else sget s k := by
  unfold sset sget
  by_cases h63 : n = 63
  · by_cases hk : k = 63 <;> simp [h63, hk]
  · by_cases h60 : 60 ≤ n
    · by_cases hk : k = 63
      · subst hk; simp [Ne.symm h63]
      · by_cases hkn : k = n <;> simp [h63, h60, hk, hkn]
    · by_cases hk : k = 63
      · subst hk; simp [Ne.symm h63]
      · by_cases hkn : k = n <;> simp [h63, h60, hk, hkn]

/-- Another scalar register reads as before. -/
theorem sget_sset_ne (s : State) {n k : Nat} (v : Word) (h : k ≠ n) : sget (sset s n v) k = sget s k := by
  rw [sget_sset, if_neg h]

/-- A scalar register below s60 reads what was written. -/
theorem sget_sset_self (s : State) {n : Nat} (v : Word) (h : n < 60) : sget (sset s n v) n = v := by
  rw [sget_sset, if_pos rfl, if_neg (by omega), if_neg (by omega)]

/-! ## Predicates -/

/-- A predicate after a write: g0 ignores it. -/
theorem pget_pset (s : State) (g : Nat) (m : LaneMask) (k : Nat) :
    pget (pset s g m) k = if k = g ∧ g ≠ 0 then m else pget s k := by
  unfold pset pget
  by_cases hg : g = 0
  · simp [hg]
  · by_cases hk : k = 0
    · subst hk; simp [hg, Ne.symm hg]
    · by_cases hkg : k = g <;> simp [hg, hk, hkg]

/-- Everything that a write of a predicate can do. -/
theorem pset_frame (s : State) (g : Nat) (m : LaneMask) :
    pset s g m = { s with w := { s.w with pred := (pset s g m).w.pred } } := by
  unfold pset; split <;> rfl

/-! ## Vector registers -/

/-- The row of a vector register after its row is replaced. -/
theorem vrow_vsetRow (s : State) (n : Nat) (r : Tab Word) (k : Nat) :
    vrow (vsetRow s n r) k = if k = n then r else vrow s k := by
  unfold vsetRow
  by_cases ht : (s.w.trap.on && decide (112 ≤ n)) = true
  · rw [if_pos ht]
    simp only [Bool.and_eq_true, decide_eq_true_eq] at ht
    by_cases hk : 112 ≤ k
    · have e : (k - 112 = n - 112) ↔ k = n := by omega
      simp [vrow, ht.1, hk, e]
    · have hne : k ≠ n := by omega
      simp [vrow, hk, hne]
  · rw [if_neg ht]
    by_cases hk : (s.w.trap.on && decide (112 ≤ k)) = true
    · have hne : k ≠ n := fun e => ht (e ▸ hk)
      simp only [vrow, hk, if_true, hne, if_false]
    · simp only [vrow, hk]
      simp

/-- A lane of a vector register after a write: the lanes of the mask take their words and the others keep theirs. -/
theorem vget_vset (s : State) (n : Nat) (m : LaneMask) (f : Nat → Word) (k l : Nat) (hl : l < 96) :
    vget (vset s n m f) k l = if k = n ∧ lane m l = true then f l else vget s k l := by
  unfold vget vset
  rw [vrow_vsetRow]
  by_cases hk : k = n
  · subst hk; by_cases hm : lane m l = true <;> simp [hl, hm]
  · simp [hk]

/-- Another vector register keeps its row. -/
theorem vrow_vset_ne (s : State) {n k : Nat} (m : LaneMask) (f : Nat → Word) (h : k ≠ n) :
    vrow (vset s n m f) k = vrow s k := by
  unfold vset; rw [vrow_vsetRow, if_neg h]

/-! ## Masks -/

/-- With the mask zero no lane is active. -/
theorem activeMask_of_em_zero (s : State) (h : em s = 0) : activeMask s = 0 := by
  unfold activeMask; rw [h]; exact BitVec.zero_and

/-- With the mask zero no lane is a non-helper lane. -/
theorem someNonHelper_of_em_zero (s : State) (h : em s = 0) : someNonHelper s = false := by
  unfold someNonHelper
  have e : (0 : LaneMask) &&& ~~~(helperMask s) = 0 := BitVec.zero_and
  rw [h, e]; rfl

/-- An instruction that goes on, with the mask zero, only goes on (06 R172). -/
theorem run_of_em_zero (s : State) (r : Res) (h : em s = 0) : run s r = .next (advance s) := by
  unfold run; rw [if_pos h]

/-- An instruction that goes on answers a next state on every path. -/
theorem run_next (s : State) (r : Res) : ∃ t, run s r = .next t := by
  unfold run commit; split
  · exact ⟨_, rfl⟩
  · exact ⟨_, rfl⟩

/-- What an instruction that goes on comes to, when its mask holds a lane. -/
theorem run_ok (s t : State) (h : em s ≠ 0) : run s (.ok t) = .next (advance t) := by
  unfold run; rw [if_neg h]; rfl

/-- The trap of an instruction that goes on, when its mask holds a lane. -/
theorem run_error (s : State) (t : Trap) (h : em s ≠ 0) : run s (.error t) = .next (takeTrap t s) := by
  unfold run; rw [if_neg h]; rfl

end Sys2Proof.Machine
end

