-- ==== Sys2Proof/Laws/Trap.lean ====
section
/-!
SUPPORT. Everything that taking a trap and returning from one can do (04 R116-R124; 16 R429, R430).
-/

namespace Sys2Proof.Machine

open Sys2Proof

/-- The four ways in which a trap ends: a lane's recall, a double fault, a halt for want of a handler, and the entry. -/
theorem takeTrap_cases (t : Trap) (s : State) :
    (s.lane.isSome = true ∧ takeTrap t s = markLane (poisonBad t s)) ∨
    (s.lane.isSome = false ∧ s.w.trap.on = true ∧ takeTrap t s = halt (poisonBad t s) s.w.trap.cause.toNat) ∨
    (s.lane.isSome = false ∧ s.w.trap.on = false ∧ (ctxGet s s.g.ctx).trapvec = 0 ∧
      takeTrap t s = halt (forgetEntry t (poisonBad t s)) t.cause) ∨
    (s.lane.isSome = false ∧ s.w.trap.on = false ∧ (ctxGet s s.g.ctx).trapvec ≠ 0 ∧
      takeTrap t s = trapEntry (poisonBad t s) t) := by
  by_cases hl : s.lane.isSome = true
  · exact .inl ⟨hl, if_pos hl⟩
  · by_cases hon : s.w.trap.on = true
    · exact .inr (.inl ⟨by simpa using hl, hon, (if_neg hl).trans (if_pos hon)⟩)
    · by_cases hv : (ctxGet s s.g.ctx).trapvec = 0
      · exact .inr (.inr (.inl ⟨by simpa using hl, by simpa using hon, hv, (if_neg hl).trans ((if_neg hon).trans (if_pos hv))⟩))
      · exact .inr (.inr (.inr ⟨by simpa using hl, by simpa using hon, hv, (if_neg hl).trans ((if_neg hon).trans (if_neg hv))⟩))

/-- The wave after trap entry: what is saved, and where it goes. -/
theorem trapEntry_w (s : State) (t : Trap) :
    (trapEntry s t).w.trap.on = true ∧ (trapEntry s t).w.trap.cause = BitVec.ofNat 32 t.cause ∧
    (trapEntry s t).w.trap.detail = BitVec.ofNat 32 t.detail ∧
    (trapEntry s t).w.trap.pc = (if t.after then s.w.pc + 4 else s.w.pc) ∧
    (trapEntry s t).w.trap.addr = BitVec.ofNat 56 t.addr ∧ (trapEntry s t).w.trap.em = em s ∧
    (trapEntry s t).w.trap.mode = s.w.mode ∧ (trapEntry s t).w.mode = handlerMode s.w.mode ∧
    (trapEntry s t).w.status = .ready ∧ (trapEntry s t).w.clause = none ∧
    (trapEntry s t).w.pc = BitVec.ofNat 56 (ctxGet s s.g.ctx).trapvec := by
  have e : (trapEntry s t).w.trap = {
      on := true, cause := BitVec.ofNat 32 t.cause, detail := BitVec.ofNat 32 t.detail
      pc := if t.after then s.w.pc + 4 else s.w.pc, addr := BitVec.ofNat 56 t.addr, em := em s, mode := s.w.mode
      tv := [], stack := [] } := by
    rw [trapEntry, goto_w_trap, setEm_w_trap]
  have m : (trapEntry s t).w.mode = handlerMode s.w.mode := by rw [trapEntry, goto_w_mode, setEm_w_mode]
  have r : (trapEntry s t).w.status = .ready := by rw [trapEntry, goto_w_status, setEm_w_status]
  have c : (trapEntry s t).w.clause = none := by rw [trapEntry, goto_w_clause]
  have p : (trapEntry s t).w.pc = BitVec.ofNat 56 (ctxGet s s.g.ctx).trapvec := by rw [trapEntry, goto_w_pc]
  rw [e, m, r, c, p]
  exact ⟨rfl, rfl, rfl, rfl, rfl, rfl, rfl, rfl, rfl, rfl, rfl⟩

/-- The wave after a return: its mode, its pc, and no trap mode. -/
theorem trapReturn_w (s : State) :
    (trapReturn s).w.trap.on = false ∧ (trapReturn s).w.mode = s.w.trap.mode ∧ (trapReturn s).w.pc = s.w.trap.pc ∧
    (trapReturn s).w.clause = none ∧ (trapReturn s).w.trap.stack = [] := by
  have e : (trapReturn s).w.trap = { s.w.trap with on := false, tv := [], stack := [] } := by
    rw [trapReturn, goto_w_trap, setEm_w_trap]
  have m : (trapReturn s).w.mode = s.w.trap.mode := by rw [trapReturn, goto_w_mode, setEm_w_mode]
  have p : (trapReturn s).w.pc = s.w.trap.pc := by rw [trapReturn, goto_w_pc]
  have c : (trapReturn s).w.clause = none := by rw [trapReturn, goto_w_clause]
  rw [e, m, p, c]
  exact ⟨rfl, rfl, rfl, rfl, rfl⟩

/-- A halt stops the wave and marks its group. -/
theorem halt_w (s : State) (cause : Nat) :
    (halt s cause).w.status = .halted ∧ (halt s cause).g.err = true ∧ (halt s cause).mem = s.mem ∧
    (halt s cause).w.pc = s.w.pc := ⟨rfl, rfl, rfl, rfl⟩

end Sys2Proof.Machine
end

