-- ==== Sys2Proof/Tests/Slice0.lean ====
section
/-!
SUPPORT. Tests of the model: words written out from the encoding tables decode to their instructions; ill-formed terms are
refused; single steps on small states, with results taken from the spec's tables; and, for every statement with hypotheses,
a state and operands that meet them.
-/

namespace Sys2Proof.Tests

set_option Elab.async false

open Sys2Proof Sys2Proof.Machine

/-! ## Small states -/

/-- A wave with lane 0 active, every register held, and a few registers set. -/
def wave0 : Wave :=
  { status := .ready, pc := 0x10004, vblocks := 16, tiles := 16
    sreg := [(4, 7), (5, 3), (8, 0x40), (48, 0x10000), (60, 1)], vreg := [(1, [(0, 5)]), (2, [(0, 9)])] }

/-- Its module: one context with a trap vector, one group with all of local memory. -/
def base : State :=
  { w := wave0, g := { desc := { waves := 1, lsize := 524288 } }, ctxs := [(0, { state := 1, trapvec := 0x30000 })] }

/-- The base state with another mode register: type in bits [7:4], rounding in [10:8], saturate 0x800. -/
def withMode (m : Word) : State := { base with w := { wave0 with mode := m } }

/-- The base state with another wave. -/
def withW (w : Wave) : State := { base with w := w }

/-- The base state with an all-zero mask. -/
def masked : State := withW { wave0 with sreg := [] }

/-- The base state in trap mode. -/
def trapped : State := withW { wave0 with trap := { on := true, cause := 3, em := 1 } }

/-- A 16 MiB page at virtual address 0 of context 0, and the base state with it in the core's TLB. -/
def page : TlbEntry :=
  { ctx := 0, va := 0, size := 12, pa := 0, cls := 0, unc := false, x := true, w := true, rd := true }
def mapped : State := { base with xlt := { core := [(0, [page])] } }
def mappedMode (m : Word) : State := { mapped with w := { wave0 with mode := m } }

/-- What holds of lane 0 holds of every lane of a mask that is lane 0 alone. -/
theorem only0 {P : Nat → Prop} (m : LaneMask) (h : m = 1) (h0 : P 0) : ∀ l, l < 96 → lane m l = true → P l := by
  intro l _ ha
  subst h
  have : l = 0 := by
    simp [lane] at ha
    exact ha
  exact this ▸ h0

theorem ok_of {ε α : Type} {x : Except ε α} {a : α} (h : x.toOption = some a) : x = .ok a := by
  cases x <;> simp_all [Except.toOption]

/-- What a step of an instruction leaves. -/
def after (i : Instr) (s : State) : State :=
  match exec i s with
  | .next t => t
  | _ => s

/-! ## Witnesses: scalar and vector instructions -/

theorem witness_ScalarArithmeticWrapsOrSaturates :
    Claims.scalarReady (withMode 0x10) 6 true [.s 4, .nat 15] ∧ sat (withMode 0x10) = false ∧ ty (withMode 0x10) ≠ 7 ∧
    Claims.scalarReady (withMode 0x810) 63 false [.s 5, .neg 7] ∧ sat (withMode 0x810) = true ∧ ty (withMode 0x810) ≠ 7 := by
  decide +kernel

theorem witness_ScalarDivisionFollowsTable :
    (let s := withMode 0x10
     Claims.scalarReady s 6 false [.s 4, .nat 0] ∧ ty s ≠ 7 ∧
     Claims.intValue false (Claims.signedType s) (srcScalar s false (.nat 0)) = 0) ∧
    (let s := withW { wave0 with mode := 0x10, sreg := [(4, 0x80000000), (60, 1)] }
     Claims.scalarReady s 6 false [.s 4, .neg 0] ∧ Claims.signedType s = true ∧ sat s = false ∧
     Claims.intValue false true (srcScalar s false (.s 4)) = -(2 ^ 31) ∧
     Claims.intValue false true (srcScalar s false (.neg 0)) = -1) ∧
    (let s := withW { wave0 with mode := 0x830, sreg := [(5, 0x80000000), (60, 1)] }
     Claims.scalarReady s 6 true [.s 4, .neg 0] ∧ Claims.signedType s = true ∧ sat s = true ∧
     Claims.intValue true true (srcScalar s true (.s 4)) = -(2 ^ 63) ∧
     Claims.intValue true true (srcScalar s true (.neg 0)) = -1) ∧
    (let s := withMode 0x10
     Claims.scalarReady s 6 false [.s 4, .s 5] ∧ Claims.intValue false true (srcScalar s false (.s 5)) ≠ 0 ∧
     Claims.intValue false true (srcScalar s false (.s 5)) ≠ -1) := by
  decide +kernel

theorem witness_ScalarBitOperations :
    Claims.scalarReady (withMode 0x10) 6 true [.s 4, .nat 15] ∧ ty (withMode 0x10) ≠ 7 := by decide +kernel

theorem witness_ScalarComparesAndMoves :
    Claims.scalarReady (withMode 0) 6 false [.s 4, .idx 3] ∧ ty (withMode 0) ≠ 7 ∧ em (withMode 0) ≠ 0 := by decide +kernel

theorem witness_OperandAndEncodingChecks :
    em masked = 0 ∧ em base ≠ 0 ∧ srcScalarOk (.v 1) = false ∧ srcScalarOk (.s 5) = true ∧ srcEven true (.s 5) = false ∧
    srcNotReserved (.resv 0xE5) = false ∧ srcNotReserved (.v 1) = true ∧ typeA (ty (withMode 0x40)) = false ∧
    typeA (ty base) = true ∧ srcHeld (withW { wave0 with vblocks := 15 }) (.v 120) = false ∧
    (match decode 0x00000000 with
      | .error .unassigned => true
      | _ => false) = true ∧
    (match decode 0x00800001 with
      | .error .reservedField => true
      | _ => false) = true ∧
    waveOpcode ((0x01000001 : Word).extractLsb' 23 9).toNat = true ∧
    waveOpcode ((0x00800001 : Word).extractLsb' 23 9).toNat = false := by decide +kernel

theorem witness_VectorArithmeticWrapsOrSaturates :
    (let s := withMode 0x90
     Claims.vectorReady s (typeA (ty s)) [.v 1, .v 127] [127] ∧ sat s = false) ∧
    (let s := withMode 0x810
     Claims.vectorReady s (typeA (ty s)) [.v 1, .nat 3] [0] ∧ Claims.vectorReady s (typeSigned (ty s)) [.v 1] [0] ∧
     sat s = true) ∧
    (let s := withMode 0x10
     Claims.vectorReady s (typeSigned (ty s)) [.v 1] [0] ∧ sat s = false) := by decide +kernel

theorem witness_VectorBitOperations :
    Claims.vectorReady base true [.v 1, .idx 4] [127] ∧
    Claims.vectorReady (withMode 0x10) (typeB (ty (withMode 0x10))) [.v 1, .v 2] [3] := by decide +kernel

theorem witness_VectorAddWithCarry : Claims.vectorReady base (typeB (ty base)) [.v 1, .neg 0] [3] := by decide +kernel

theorem witness_PredicateWrites :
    em base ≠ 0 ∧ Claims.vectorReady base true [.v 1] [] ∧ Claims.vectorReady base (typeB (ty base)) [.v 1, .v 2] [] ∧
    Claims.vectorReady (withMode 0x40) (ty (withMode 0x40) == 0x4) [.v 1, .flt 2] [] ∧ 6 ≤ (6 : BitVec 4).toNat ∧
    8 ≤ (8 : BitVec 4).toNat := by decide +kernel

theorem witness_FloatResultsRoundedOnce :
    Claims.vectorReady (withMode 0x440) (ty (withMode 0x440) == 0x4) [.v 1, .flt 2] [3] ∧ rnd (withMode 0x440) ≤ 4 := by
  decide +kernel

theorem witness_FloatMinMaxPackedAndConversion :
    Claims.vectorReady (withMode 0x40) (ty (withMode 0x40) == 0x4) [.v 1, .flt 2] [3] ∧
    (let s := withMode 0xA0
     Claims.vectorReady s (ty s == 0xA || ty s == 0xB) [.v 1, .v 2] [3] ∧ rnd s ≤ 4 ∧ cvtIndexOk 0x6 1 = true ∧
     Claims.vectorReady s (ty s != 0x2 && ty s != 0x3 && ty s != 0x7) [.v 1] [3]) ∧
    (let s := withMode 0xE0
     Claims.vectorReady s (decide (0xA ≤ ty s) && decide (ty s ≤ 0xE)) [.v 1, .v 2] [3]) := by decide +kernel

theorem witness_RoundingFollowsItsMode :
    (Sys2Proof.Num.f16 ∈ [Sys2Proof.Num.f32, Sys2Proof.Num.bf16, Sys2Proof.Num.f16, Sys2Proof.Num.e5m2, Sys2Proof.Num.e4m3] ∧ 0x3C00 < 2 ^ (1 + Sys2Proof.Num.f16.eb + Sys2Proof.Num.f16.fb) ∧
      Sys2Proof.Num.f16.decode 0x3C00 ≠ .nan) ∧ (-3 : Int) ≤ 0 ∧ 2 * (4 % 2 ^ (0 - (-3 : Int)).toNat) = 2 ^ (0 - (-3 : Int)).toNat := by
  decide +kernel

theorem witness_CrossLaneMoves :
    Claims.vectorReady base true [.v 1, .v 2] [3] ∧ Claims.vectorReady (withMode 0x40) (ty (withMode 0x40) == 0x4) [.v 1] [3] ∧
    rnd (withMode 0x40) ≤ 4 ∧ em base ≠ 0 ∧ vHeld base 127 = true ∧ (2 : BitVec 8).toNat < 3 ∧ srcScalarOk (.s 4) = true ∧
    srcScalarOrConst (.nat 15) = true ∧ srcScalarOrConst (.s 5) = true := by decide +kernel

theorem witness_RandomDrawsInLaneOrder : em base ≠ 0 ∧ vHeld base 127 = true := by decide +kernel

/-! ## Witnesses: control flow, traps, keys, barriers, space -/

/-- Waves for the control instructions. -/
def joinEntry (pc : Pc) : Entry := { kind := .join, mask := 1, pc := pc, rpc := some pc, live := 2, eject := false }

theorem witness_WaveTransfersLoopsAndWaits :
    (sget base 9 = 0 ∧ sget base 4 ≠ 0 ∧ (58 : BitVec 6) ≠ 60 ∧ (58 : BitVec 6) ≠ 62 ∧ (58 : BitVec 6).toNat % 2 = 0 ∧
      (sget64 base 48).extractLsb' 56 8 = 0 ∧ srcScalarOk (.s 5) = true ∧
      (sget64 base 48 + (srcLane base (ty base) (.s 5) 0).signExtend 64).extractLsb' 56 8 = 0) ∧
    (let s := withW { wave0 with sreg := [(49, 0x01000000), (60, 1)] }
     (sget64 s 48).extractLsb' 56 8 ≠ 0 ∧
      (sget64 s 48 + (srcLane s (ty s) (.nat 0) 0).signExtend 64).extractLsb' 56 8 ≠ 0) ∧
    (59 : BitVec 6).toNat < 60 ∧ 60 ≤ (60 : BitVec 6).toNat ∧ base.w.trap.on = false ∧
    (∀ i, i < 12 → (0x800 : BitVec 12).getLsbD i = true → Tab.get 0 base.w.flag i = 0) ∧
    (let s := withW { wave0 with flag := [(11, 1)] }
     ∃ i, i < 12 ∧ (0x800 : BitVec 12).getLsbD i = true ∧ Tab.get 0 s.w.flag i ≠ 0) := by decide +kernel

/-- Two lanes active, predicate g1 set in lane 0, v1 holding the table indices 1 and 1. -/
def twoLanes : State :=
  { mapped with
    w := { wave0 with sreg := [(8, 0x8000), (60, 3)], pred := [(1, 1)], vreg := [(1, [(0, 1), (1, 1)])] }
    mem := { cells := [(0x8000, 2), (0x8008, 0x40)] } }

theorem witness_BranchesAndJumpTablesDivideTheMask :
    (nonHelperMask masked &&& pget masked 1 = 0) ∧
    (let s := twoLanes
     let taken := nonHelperMask s &&& pget s 1
     let other := (em s &&& ~~~(helperMask s)) &&& ~~~taken
     taken ≠ 0 ∧ other ≠ 0 ∧ Claims.branchTarget s 2 ≠ s.w.pc + 4 ∧ s.w.trap.on = false ∧ s.w.batches = 0 ∧
       s.w.stack.length < 16 ∧ topJoin s.w.stack = none) ∧
    (let s := { twoLanes with w := { twoLanes.w with pred := [(1, 3)] } }
     let taken := nonHelperMask s &&& pget s 1
     taken ≠ 0 ∧ (em s &&& ~~~(helperMask s)) &&& ~~~taken = 0 ∧ Claims.branchTarget s (-2) ≠ s.w.pc + 4) ∧
    (nonHelperMask twoLanes &&& pget twoLanes 1 ≠ 0 ∧ Claims.branchTarget twoLanes 0 = twoLanes.w.pc + 4) ∧
    (let s := { twoLanes with w := { twoLanes.w with stack := [joinEntry 0x10020] } }
     ∀ j ∈ (topJoin s.w.stack).toList, j.1.eject = false ∧ j.1.rpc = curRpc s.w) := by decide +kernel

theorem witness_BranchesAndJumpTablesDivideTheMask_tables :
    (srcNotReserved (.v 1) = true ∧ srcHeld twoLanes (.v 1) = true ∧ (8 : BitVec 6).toNat % 2 = 0) ∧
    nonHelperMask masked = 0 ∧
    (let s := twoLanes
     nonHelperMask s ≠ 0 ∧ em s &&& ~~~(guardMask s) = 0 ∧ (readNow s 0x8000 4).toOption = some 2 ∧ 1 < 2 ∧
       (∀ l, l < 96 → lane (nonHelperMask s) l = true → (srcLane s 0 (.v 1) l).toNat = 1) ∧
       (readNow s ((0x8000 + 4 + 4 * 1) % 2 ^ 64) 4).toOption = some 0x40) ∧
    (let s := { twoLanes with w := { twoLanes.w with vreg := [(1, [(0, 1), (1, 2)])] } }
     nonHelperMask s ≠ 0 ∧ (readNow s 0x8000 4).toOption = some 2 ∧ 1 < 96 ∧ lane (nonHelperMask s) 1 = true ∧
       2 ≤ (srcLane s 0 (.v 1) 1).toNat ∧
       (∀ k, k < 1 → lane (nonHelperMask s) k = true → (srcLane s 0 (.v 1) k).toNat < 2)) := by decide +kernel

theorem witness_JoinPushesAndExitRemoves :
    ({ base with lane := some 3 } : State).lane.isSome = true ∧ base.lane = none ∧
    (withW { wave0 with vblocks := 14 }).w.vblocks < (15 : BitVec 4).toNat ∧ (15 : BitVec 4).toNat ≤ base.w.vblocks ∧
    base.w.trap.on = false ∧ base.w.stack.length < 16 ∧ base.w.batches = 0 ∧ base.w.ejected = [] ∧
    em base &&& ~~~(nonHelperMask base) = 0 ∧ base.w.stack = [] ∧
    (let s := withW { wave0 with hmask := 2, sreg := [(60, 3)] }
     em s &&& ~~~(nonHelperMask s) ≠ 0) ∧
    (let s := withW { wave0 with stack := [{ joinEntry 0x20000 with mask := 3 }] }
     let m := nonHelperMask s
     s.w.stack.map (fun e => { e with mask := e.mask &&& ~~~m }) = [{ joinEntry 0x20000 with mask := 2 }] ∧
     (2 : LaneMask) &&& ~~~(s.w.gone ||| m) ≠ 0) := by decide +kernel

theorem witness_TrapEntrySavesAndVectors :
    let x : Trap := { cause := 0x08, detail := 3, addr := 0x1234, lanes := some 1 }
    let e : FaultEntry := { cause := 9, addr := 0x77, detail := 1, slots := 0x10 }
    x.entry = none ∧ ({ x with entry := some e, bad := [5], badLoc := [0x3FFF] } : Trap).entry = some e ∧
    base.lane = none ∧ base.w.trap.on = false ∧ (ctxGet base base.g.ctx).trapvec ≠ 0 ∧
    (ctxGet ({ base with ctxs := [] } : State) base.g.ctx).trapvec = 0 := by decide +kernel

theorem witness_TrapInstructionsAndReturn :
    nonHelperMask masked = 0 ∧ nonHelperMask base ≠ 0 ∧ base.lane = none ∧ base.w.trap.on = false ∧
    (ctxGet base base.g.ctx).trapvec ≠ 0 ∧ em trapped ≠ 0 ∧ activeMask trapped ≠ 0 ∧ trapped.w.trap.on = true ∧
    trapped.w.trap.stack = [] ∧ em base ≠ 0 := by decide +kernel

theorem witness_DoubleFaultsHalt :
    (let x : Trap := { cause := 0x02, detail := 1 }
     x.entry = none ∧ x.bad = [] ∧ x.badLoc = [] ∧ trapped.lane = none ∧ trapped.w.trap.on = true ∧
     (ctxGet ({ base with ctxs := [] } : State) 0).trapvec = 0 ∧
     (({ trapped with g := { trapped.g with peers := [{ status := .ready, idx := 1 }] } } : State).g.peers[0]?).isSome = true) ∧
    someNonHelper trapped = true ∧ activeMask trapped ≠ 0 ∧
    ({ trapped.w.trap with stack := [joinEntry 0] } : TrapState).stack ≠ [] ∧
    (trapped.w.vblocks + (0 : BitVec 16).toNat ≤ 16 ∧ trapped.w.tiles + (0 : BitVec 16).toNat ≤ 16 ∧
      ({ trapped.w with vblocks := 15 } : Wave).vblocks + (1 : BitVec 16).toNat ≤ 16) := by decide +kernel

theorem witness_SystemRegistersReadAndWrite :
    em base ≠ 0 ∧ activeMask base ≠ 0 ∧ trapped.w.trap.on = true ∧ em trapped ≠ 0 ∧ activeMask trapped ≠ 0 ∧
    base.w.trap.on = false ∧ 0x10 ≤ (0x19 : BitVec 8).toNat ∧ (0x07 : BitVec 8).toNat ∈ [0x07, 0x0A, 0x0B] ∧
    0x24 ≤ (0x24 : BitVec 8).toNat ∧
    (0x03 : BitVec 8).toNat ∉ [0x02, 0x04, 0x05, 0x06, 0x0C, 0x0D, 0x0E, 0x0F, 0x12, 0x13, 0x16, 0x17, 0x18, 0x19] ∧
    (let v : Word := 0x00021000
     v.extractLsb' 0 4 = BitVec.ofNat 4 base.w.idx ∧ v.extractLsb' 4 4 = BitVec.ofNat 4 (base.w.idx % 4) ∧
     v.extractLsb' 8 5 = BitVec.ofNat 5 base.w.vblocks ∧ v.extractLsb' 13 5 = BitVec.ofNat 5 base.w.tiles ∧
     v.extractLsb' 18 5 = BitVec.ofNat 5 base.w.stack.length ∧ v.getLsbD 23 = false ∧
     v.extractLsb' 24 7 = BitVec.ofNat 7 base.w.ejected.length ∧ v.getLsbD 31 = false) ∧
    ((6 : BitVec 6).toNat % 2 = 0) ∧
    (let s := withMode 1
     em s ≠ 0 ∧ activeMask s = 0 ∧ sysRead s (0x02 : BitVec 8).toNat = some 0 ∧
     (sysWrite s (0x0C : BitVec 8).toNat (sget s (4 : BitVec 6).toNat)).isSome = true) := by decide +kernel

/-- A store in flight, a member of k2, and a fault entry that taints k4. -/
def keyOp : Op :=
  { id := 10, owner := 0, lane := none, pc := 0x10000, kind := .store false [(0x10010, 1)]
    tag := some { handle := 0, slot := 2, gen := 3 }, consume := 0, waits := [], scope := 0, strong := false, flag := none, done := 1
    rd := [], wr := [], fault := none, faultLanes := 0, late := none, uncached := [], cls := [], accs := [], die := 0, core := 0, via := [] }
def entry0 : FaultEntry := { cause := 9, addr := 0x77, detail := 1, slots := 0x10 }
def keyed : State :=
  { base with
    w := { wave0 with keys := { tags := [(2, [{ handle := 0, slot := 2, gen := 3 }])], gen := [(2, 3)], arrival := 4, faults := [entry0] } }
    ops := [keyOp], nextOp := 11 }

/-- Eleven members, of five tags of k2 and six of k3. -/
def manyTags : State :=
  let tag (n : Nat) : Tag := { handle := 0, slot := if n < 5 then 2 else 3, gen := n }
  { keyed with
    w := { keyed.w with keys := { keyed.w.keys with tags := [(2, (List.range 5).map tag), (3, [5, 6, 7, 8, 9, 10].map tag)] } }
    ops := (List.range 11).map (fun n => { keyOp with id := 10 + n, tag := some (tag n) }), nextOp := 21 }

theorem witness_KeySetsJoinForkAndClear :
    someNonHelper keyed = true ∧ (15 : BitVec 4) ≠ 0 ∧ keyed.w.status = .ready ∧
    (((tagsOf keyed.w 2 ++ tagsOf keyed.w 3).eraseDups).filter (tagBusy keyed keyed.w)).length ≤ 8 ∧
    (let u := (tagsOf manyTags.w 2 ++ tagsOf manyTags.w 3).eraseDups
     someNonHelper manyTags = true ∧ manyTags.w.status = .ready ∧ 8 < (u.filter (tagBusy manyTags manyTags.w)).length ∧
     (let s := { manyTags with w := { manyTags.w with status := .waiting (.join u) }, ops := manyTags.ops.drop 3 }
      someNonHelper s = true ∧ s.w.status = .waiting (.join u) ∧ (u.filter (tagBusy s s.w)).length ≤ 8)) := by decide +kernel

theorem witness_KeyWaitsAndStatus :
    Claims.actsOnce keyed ∧ scope keyed ≤ 5 ∧ keyed.w.ksendOverdue = false ∧ Claims.consumeMet keyed 3 (scope keyed) ∧
    Claims.consumeMet keyed 2 (scope keyed) ∧
    entryToTake keyed.w (some 4) (membersOf keyed keyed.w 4) = some entry0 ∧
    (let s := { keyed with w := { keyed.w with mode := 0x2000 } }
     Claims.actsOnce s ∧ scope s ≤ 5 ∧ entryToTake s.w (some 2) (membersOf s s.w 2) = none ∧
     ∃ id ∈ membersOf s s.w 2, performedAt s s.w (scope s) id = false) ∧
    (let s := { keyed with w := { keyed.w with keys := { keyed.w.keys with faults := [] } } }
     Claims.actsOnce s ∧ entryToTake s.w none (ownMembers s s.w) = none ∧
     ∀ id ∈ ownMembers s s.w, performedAt s s.w (scope s) id = true) ∧
    keyed.w.keys.arrival.getLsbD (2 : BitVec 4).toNat = true ∧ keyed.w.keys.arrival.getLsbD (15 : BitVec 4).toNat = false ∧
    (tagsOf keyed.w (2 : BitVec 4).toNat).length < 16 := by decide +kernel

/-- A KSEND to another module in flight. -/
def sendOp : Op := { keyOp with id := 12, kind := .ksend 0x0400000000000000 3 [] [] true, waits := [10], done := 0, tag := some { handle := 0, slot := 0, gen := 0 } }

theorem witness_KeySendAndDelivery :
    (let s := { keyed with w := { keyed.w with sreg := [(5, 0x04000000), (60, 1)] } }
     someNonHelper s = true ∧ s.w.status ≠ .idle ∧ (4 : BitVec 6).toNat % 2 = 0 ∧ (15 : BitVec 4) ≠ 0 ∧ sget64 s 4 ≠ s.w.name ∧
     nameModule (sget64 s 4) ≠ s.fab.module) ∧
    (let s := { keyed with w := { keyed.w with name := sget64 keyed 4 } }
     someNonHelper s = true ∧ s.w.status ≠ .idle ∧ sget64 s 4 = s.w.name) ∧
    (let h : HeldFault := { op := 9, tag := { handle := 0, slot := 2, gen := 3 }, entry := entry0 }
     let s := { keyed with w := { keyed.w with keys := { keyed.w.keys with heldFaults := [h] } } }
     s.w.status ≠ .idle ∧ (∀ o ∈ s.ops, o.fault = none ∧ o.consume = 0) ∧ s.w.keys.heldFaults = h :: [] ∧
     s.w.keys.faults.length < 4) ∧
    (let d : Delivery := { slot := 15, tags := [{ handle := 0, slot := 2, gen := 3 }], faults := [entry0], op := 1 }
     let s := { keyed with w := { keyed.w with keys := { keyed.w.keys with queue := [d] } } }
     waveAnywhere s s.w.handle = some s.w ∧ s.w.keys.queue = [d] ∧ d.slot ≠ 0 ∧ d.slot < 16 ∧
       (((tagsOf s.w d.slot ++ d.tags).eraseDups).filter (fun x => tagBusy s s.w x)).length ≤ 8 ∧
       s.w.keys.faults.length + d.faults.length ≤ 4) ∧
    (let s := { keyed with ops := [{ keyOp with done := 6 }, sendOp] }
     findOp s sendOp.id = some sendOp ∧ s.w.status ≠ .idle ∧ s.w.handle = sendOp.owner ∧
       waveAnywhere s sendOp.owner = some s.w ∧ (∀ id ∈ sendOp.waits, performedAt s s.w 5 id = true) ∧
       nameReached s 0x0400000000000000 = false ∧
       nameReached { s with fab := { valid := true, route := [(nameModule 0x0400000000000000, 1)] }, pkg := { ready := { guyline := 1 } } }
         0x0400000000000000 = true) := by decide +kernel

theorem witness_GroupBarriersGather :
    (base.w.trap.on = false ∧ scope base ≤ 5 ∧ base.w.status = .ready ∧ em base ≠ 0 ∧
      Claims.consumeMet base 0 (max (scope base) 1) ∧ unexited base ≤ Tab.get 0 base.g.gbarArr 3 + 1) ∧
    (let s := { base with g := { base.g with peers := [{ status := .ready, idx := 1, handle := 0x100000000 }] } }
     Claims.consumeMet s 0 (max (scope s) 1) ∧ Tab.get 0 s.g.gbarArr 3 + 1 < unexited s) ∧
    (base.w.stack = [] ∧ base.w.batches = 0 ∧ base.w.ejected = []) ∧
    (em masked = 0 ∧ masked.w.trap.on = false ∧ scope masked ≤ 5 ∧ masked.w.status = .ready) ∧
    (withW { wave0 with stack := [joinEntry 0x20000] }).w.stack ≠ [] := by decide +kernel

/-- A barrier at local offset 64: phase 15, reload 2, one pending arrival, no pending sectors, wave 1 yielded on it or not. -/
def barState (yielded : Nat) : State :=
  let b : Bar := { phase := 15, reload := 2, arrivals := 1, sectors := 0, expected := 0, yielded := yielded }
  { base with g := locPut base.g (cellsAt 0x40 (bytesOf 16 b.pack)) }

theorem witness_BarrierInitialisedAndCounted :
    someNonHelper (barState 0) = true ∧ Claims.barrierAt (barState 0) (.s 8) 0x40 ∧ (4 : BitVec 6).toNat % 2 = 0 ∧
    Claims.ownFocus (barState 0) ∧ srcScalarOk (.nat 3) = true ∧ (barState 0).held = [] ∧
    Claims.barrierIs (barState 0).g 0x40 15 2 1 0 0 0 ∧ 0 < 1 ∧ scope (barState 0) ≤ 5 ∧
    Claims.consumeMet (barState 0) 0 (max (scope (barState 0)) 1) ∧
    Claims.barrierAt { barState 0 with w := { wave0 with sreg := [(8, 0x7FFFF), (60, 1)] } } (.s 8) 0x7FFF0 := by
  refine ⟨by decide +kernel, by decide +kernel, by decide +kernel, by decide +kernel, by decide +kernel, by decide +kernel, ?_,
    by decide +kernel, by decide +kernel, by decide +kernel, by decide +kernel⟩
  rfl

theorem witness_BarrierPhaseTests :
    Claims.actsOnce (barState 2) ∧ (barState 2).w.trap.on = false ∧ Claims.barrierAt (barState 2) (.s 8) 0x40 ∧
    srcScalarOk (.nat 15) = true ∧ Claims.barrierIs (barState 2).g 0x40 15 2 1 0 0 2 ∧
    (srcLane (barState 2) (ty (barState 2)) (.nat 15) 0).toNat % 16 = 15 ∧
    (srcLane (barState 2) (ty (barState 2)) (.nat 14) 0).toNat % 16 ≠ 15 ∧ (48 : BitVec 6).toNat % 2 = 0 ∧
    (sget64 (barState 2) 48).extractLsb' 56 8 = 0 ∧ (barState 2).w.idx < 16 ∧ 2 < 2 ^ 16 := by
  refine ⟨by decide +kernel, by decide +kernel, by decide +kernel, by decide +kernel, ?_, by decide +kernel, by decide +kernel,
    by decide +kernel, by decide +kernel, by decide +kernel, by decide +kernel⟩
  rfl

theorem witness_SpaceMovesBetweenWaveAndPool :
    someNonHelper base = true ∧ base.w.trap.on = false ∧ base.w.ejected = [] ∧ base.w.vblocks ≤ 16 ∧ base.w.tiles ≤ 16 ∧
    (let s := withW { wave0 with ejected := [{ lane := 95, thread := 3, pc := 0x10004, depth := 0, rpc := 0x10020, live := 14, mode := 0
                                               win := [], pred := 0, sreg := [], flag := [], clause := none, status := .ready
                                               started := true, readsSince := [] }] }
     someNonHelper s = true ∧ (2 : BitVec 16).toNat ≤ s.w.vblocks ∧ ∀ e ∈ s.w.ejected, e.live + (2 : BitVec 16).toNat ≤ s.w.vblocks) ∧
    ((16 : BitVec 16) ≠ 0 ∧ (16 : BitVec 16).toNat ≤ 16 ∧ (16 : BitVec 16).toNat ≤ base.w.vblocks ∧
      (16 : BitVec 16).toNat ≤ base.w.tiles) ∧
    (let s := { base with w := { wave0 with vblocks := 12, tiles := 12 }, g := { base.g with vpool := [(0, 4)], xpool := [(0, 4)] } }
     s.w.trap.on = false ∧ s.g.claims = [] ∧ s.w.vblocks + (4 : BitVec 16).toNat ≤ 16 ∧ s.w.tiles + (4 : BitVec 16).toNat ≤ 16 ∧
     (4 : BitVec 16).toNat ≤ Tab.get 0 s.g.vpool 0 ∧ (4 : BitVec 16).toNat ≤ Tab.get 0 s.g.xpool 0) ∧
    (let s := { base with w := { wave0 with vblocks := 12 }, g := { base.g with vpool := [(0, 3)] } }
     s.w.vblocks + (4 : BitVec 16).toNat ≤ 16 ∧ Tab.get 0 s.g.vpool 0 < (4 : BitVec 16).toNat) ∧
    (∀ v ∈ [true, false],
      let s := { base with w := { wave0 with vblocks := 12, tiles := 12 }, g := { base.g with claims := [{ wave := 4, vector := v, n := 1 }] } }
      (∀ c ∈ s.g.claims, c.wave ≠ s.w.idx) ∧ s.g.claims.filter (fun c => c.vector == v && c.wave % 4 == s.w.idx % 4) ≠ [] ∧
      poolGet s.g v 0 < (4 : BitVec 16).toNat ∧ s.w.vblocks + (4 : BitVec 16).toNat ≤ 16 ∧ s.w.tiles + (4 : BitVec 16).toNat ≤ 16) ∧
    (∃ c ∈ ({ base.g with claims := [{ wave := 0, vector := true, n := 1 }] } : Group).claims, c.wave = base.w.idx) ∧
    16 < (17 : BitVec 16).toNat ∧ (withW { wave0 with vblocks := 15 }).w.vblocks < (16 : BitVec 16).toNat ∧
    16 < base.w.vblocks + (1 : BitVec 16).toNat ∧ (withW { wave0 with tiles := 0 }).w.tiles < (1 : BitVec 16).toNat ∧
    16 < base.w.tiles + (1 : BitVec 16).toNat := by decide +kernel

/-! ## Witnesses: memory accesses, the matrix engine, the state-space unit -/

/-- Places in memory from an address on. -/
def from' (a n : Nat) : List Nat := (List.range n).map (a + ·)

/-- The mapped state with a number of lanes and the addresses and data of v2, v3. -/
def accState : State :=
  { mapped with w := { wave0 with vreg := [(2, [(0, 0x40)])], sreg := [(6, 0x20), (48, 0x10000), (60, 1)] } }
/-- All lanes masked. -/
def accMasked : State := { accState with w := { accState.w with sreg := [(48, 0x10000)] } }
/-- The type of 8 bytes. -/
def acc8 : State := { accState with w := { accState.w with mode := 0x20 } }

theorem witness_LoadsAndStoresIssue :
    Claims.accessReady accState 15 ∧ activeMask accState ≠ 0 ∧ nonHelperMask accState ≠ 0 ∧ someNonHelper accState = true ∧
    Claims.typedReady accState (4 : BitVec 7).toNat (2 :: Claims.dataAt accState 4) ∧
    (∀ l, l < 96 → lane (activeMask accState) l = true → accessPhys accState .read (Claims.globalAddr accState 0 2 l) 4 = .ok (from' 0x10040 4)) ∧
    (∀ l, l < 96 → lane (activeMask accState) l = true → Claims.localAddr accState 0 2 4 l + 4 ≤ accState.g.desc.lsize) ∧
    (∀ l, l < 96 → lane (activeMask accState) l = true →
      accessPhys accState .read (Claims.globalAddr accState 0 2 l / 128 * 128) 128 = .ok (from' 0x10000 128)) ∧
    (96 : BitVec 7).toNat % 8 = 0 ∧ (96 : BitVec 7).toNat ≤ 96 ∧ (∀ r, 96 ≤ r → r < 96 + 32 → vHeld accState r = true) ∧
    accessPhys accState .read 0x10020 4 = .ok (from' 0x10020 4) ∧ accessPhys accState .write 0x10020 4 = .ok (from' 0x10020 4) ∧
    (∀ l, l < 96 → lane (nonHelperMask accState) l = true →
      accessPhys accState .write (Claims.globalAddr accState 0 2 l) 4 = .ok (from' 0x10040 4)) ∧
    (∀ l, l < 96 → lane (nonHelperMask accState) l = true →
      accessPhys accState .write (Claims.globalAddr accState 0 2 l / 128 * 128) 128 = .ok (from' 0x10000 128)) ∧
    (let s := withW { wave0 with sreg := [(60, 1)], hmask := 1 }
     Claims.accessReady s 0 ∧ nonHelperMask s = 0 ∧ Claims.typedReady s 4 (2 :: Claims.dataAt s 4)) := by
  refine ⟨by decide +kernel, by decide +kernel, by decide +kernel, by decide +kernel, by decide +kernel, ?_, by decide +kernel, ?_,
    by decide +kernel, by decide +kernel, ?_, ok_of (by decide +kernel), ok_of (by decide +kernel), ?_, ?_, by decide +kernel⟩
  · exact only0 _ (by decide +kernel) (ok_of (by decide +kernel))
  · exact only0 _ (by decide +kernel) (ok_of (by decide +kernel))
  · intro r h1 h2; rw [show r = 96 + (r - 96) by omega]; revert h2
    exact fun h2 => (show ∀ k, k < 32 → vHeld accState (96 + k) = true by decide +kernel) (r - 96) (by omega)
  · exact only0 _ (by decide +kernel) (ok_of (by decide +kernel))
  · exact only0 _ (by decide +kernel) (ok_of (by decide +kernel))

/-- Lane 0 in the mask, but with a false guard, so no lane is active. -/
def noneActive : State := { accState with w := { accState.w with mode := 1 } }

theorem witness_LoadsAndStoresIssue_noLane :
    Claims.accessReady noneActive 0 ∧ activeMask noneActive = 0 ∧ Claims.typedReady noneActive 4 (2 :: Claims.dataAt noneActive 4) := by
  decide +kernel

/-- An operation of the wave, with no key. -/
def opOf (id : Nat) (k : OpKind) (done : Nat) : Op := { keyOp with id := id, kind := k, tag := none, done := done }
/-- The accessing state with it in flight. -/
def flying (k : OpKind) (done : Nat) : State := { accState with ops := [opOf 20 k done], nextOp := 21 }

theorem witness_AtomicsIssueAndPerform :
    (Claims.accessReady acc8 15 ∧ nonHelperMask acc8 ≠ 0 ∧ (124 : BitVec 7).toNat % 4 = 0 ∧ vHeld acc8 2 = true ∧
      (∀ r, r < 4 → vHeld acc8 ((124 : BitVec 7).toNat + r) = true) ∧ ty acc8 ∈ [0, 1, 2, 3, 4]) ∧
    (∀ l, l < 96 → lane (nonHelperMask acc8) l = true →
      accessPhys acc8 .both (Claims.globalAddr acc8 0 2 l / 8 * 8) 8 = .ok ((List.range 8).map (0x10040 + ·)) ∧
      ∀ j, j < 8 → paRegion (0x10040 + j) = 0) ∧
    (let s := { accState with w := { accState.w with mode := 0x440 } }
     Claims.accessReady s 0 ∧ ty s ∈ [4] ∧ rnd s ≤ 4) ∧
    (let items : List AtomItem := [{ lane := 0, addr := 0x10040, x := 1, c := 0 }, { lane := 95, addr := 0x10040, x := 2, c := 0 }]
     let s := flying (.atomic .add 4 false 0 false 4 items) 0
     Claims.mayPerform s (opOf 20 (.atomic .add 4 false 0 false 4 items) 0) ∧
     inOrder s blocksWrite (opOf 20 (.atomic .add 4 false 0 false 4 items) 0) = true ∧
     (∀ x ∈ items, x.lane < 96 ∧ x.addr % 4 = 0 ∧ sectorDev s (x.addr / 32) = 0 ∧ x.x < 2 ^ (8 * 4) ∧ x.c < 2 ^ (8 * 4)) ∧
     (items.map (·.lane)).Nodup ∧ (writeFor s (opOf 20 (.atomic .add 4 false 0 false 4 items) 0) (items.map (·.addr))).isSome = true) ∧
    (let items : List AtomItem := [{ lane := 0, addr := 0x10040, x := 1, c := 0 }, { lane := 95, addr := 0x10048, x := 2, c := 0 }]
     let o : Op := { opOf 20 (.atomic .cas 8 false 0 false 4 items) 0 with olds := [(3, 2 ^ 33 + 7)], raised := 1 }
     let s := { accState with ops := [o], nextOp := 21 }
     Claims.mayPerform s o ∧ (items.map (·.addr)).Nodup ∧ (o.olds.map (·.1) ++ items.map (·.lane)).Nodup ∧ (∀ q ∈ o.olds, q.1 < 96) ∧
     (∀ x ∈ items, x.addr % 8 = 0 ∧ sectorDev s (x.addr / 32) = 0) ∧ inOrder s blocksWrite o = true ∧
     (writeFor s o (items.map (·.addr))).isSome = true) := by
  refine ⟨by decide +kernel, ?_, by decide +kernel, by decide +kernel, by decide +kernel⟩
  exact only0 _ (by decide +kernel) (⟨ok_of (by decide +kernel), by decide +kernel⟩)

theorem witness_LoadsReturnTheirData :
    (let accs : List LaneAcc := [{ lane := 0, va := 0x10040, bytes := from' 0x10040 8 }, { lane := 95, va := 0x10048, bytes := from' (2 ^ 45) 8 }]
     let o : Op := { opOf 20 (.load false 8 false (.vec 4) accs) 0 with got := [(0x10044, 9)] }
     let s := { accState with ops := [o], nextOp := 21 }
     Claims.mayPerform s o ∧ inOrder s blocksLoad o = true ∧ queueOrdered s o = true ∧ (accs.map (·.lane)).Nodup ∧ 8 ∈ [1, 2, 4, 8] ∧
     (∀ x ∈ accs, x.lane < 96 ∧ x.bytes.length = 8) ∧
     (∀ a ∈ Claims.unboundPlaces o accs, paRegion a ≠ 2 → sectorDev (loadView s o) (a / 32) = 0) ∧
     (fillFor s o (Claims.unboundPlaces o accs)).isSome = true) ∧
    (let accs : List LaneAcc := [{ lane := 0, va := 0, bytes := from' 0 128 }]
     let o := opOf 20 (.load true 128 false (.line 96) accs) 0
     let s := flying (.load true 128 false (.line 96) accs) 0
     Claims.mayPerform s o ∧ inOrder s blocksLoad o = true ∧ queueOrdered s o = true ∧ (accs.map (·.lane)).Nodup ∧
     (∀ x ∈ accs, x.lane < 96 ∧ x.bytes.length = 128 ∧ ∀ a ∈ x.bytes, locDev (loadView s o).g (a / 32) = 0)) ∧
    (let accs : List LaneAcc := [{ lane := 0, va := 0x10040, bytes := from' 0x10040 1 }]
     let o := opOf 20 (.load false 1 true (.scal 6) accs) 0
     let s := flying (.load false 1 true (.scal 6) accs) 0
     Claims.mayPerform s o ∧ inOrder s blocksLoad o = true ∧ queueOrdered s o = true ∧ 1 ∈ [1, 2, 4, 8] ∧
     (∀ x ∈ accs, x.lane < 96 ∧ x.bytes.length = 1 ∧ ∀ a ∈ x.bytes, paRegion a ≠ 2 → sectorDev (loadView s o) (a / 32) = 0) ∧
     (fillFor s o (accs.flatMap (·.bytes))).isSome = true) := by decide +kernel

theorem witness_StoresPerformTheirCells :
    (let cells : List (Nat × Byte) := [(0x10040, 1), (0x10041, 2), (0x10040, 3)]
     let o := opOf 20 (.store false cells) 1
     let s := flying (.store false cells) 1
     Claims.mayPerform s o ∧ o.late = none ∧ 0 < o.done ∧ o.done < 5 ∧ inOrder s blocksWrite o = true ∧
     (∀ c ∈ cells, noroute s c.1 = none) ∧ (∀ c ∈ cells, paRegion c.1 = 0) ∧ (writeFor s o (cells.map (·.1))).isSome = true ∧
     cells ≠ [] ∧ Claims.mayPerform (flying (.store false cells) 0) (opOf 20 (.store false cells) 0)) ∧
    (Claims.mayPerform (flying (.store false []) 0) (opOf 20 (.store false []) 0)) ∧
    (let cells : List (Nat × Byte) := [(2 ^ 44, 1)]
     let o := opOf 20 (.store false cells) 4
     let s := flying (.store false cells) 4
     Claims.mayPerform s o ∧ inOrder s blocksWrite o = true ∧ (∀ c ∈ cells, noroute s c.1 = none) ∧
     (∀ c ∈ cells, paRegion c.1 = 1) ∧ cells ≠ [] ∧ o.late = none ∧ (writeFor s o (cells.map (·.1))).isSome = true) ∧
    (let s := { flying (.store false [(2 ^ 44, 1)]) 5 with host := { trained := 3 } }
     Claims.mayPerform s (opOf 20 (.store false [(2 ^ 44, 1)]) 5) ∧ activeUp s = true) ∧
    (let s := flying (.store true [(0x4C, 1), (0x7FFFF, 2)]) 0
     Claims.mayPerform s (opOf 20 (.store true [(0x4C, 1), (0x7FFFF, 2)]) 0) ∧
     inOrder s blocksWrite (opOf 20 (.store true [(0x4C, 1), (0x7FFFF, 2)]) 0) = true) := by
  refine ⟨?_, ?_, ?_, ?_, ?_⟩ <;> decide +kernel

theorem witness_PrefetchEnqueueAndLaunchIssue :
    em accState ≠ 0 ∧ vHeld accState 2 = true ∧ (2 : BitVec 7).toNat ≤ 2 ∧ 2 < (3 : BitVec 7).toNat ∧
    (∃ id ∈ membersOf keyed keyed.w 2, performedAt { keyed with w := { keyed.w with mode := 0x2000 } } keyed.w 1 id = false) ∧
    entryToTake accState.w (some 0) (membersOf accState accState.w 0) = none ∧ someNonHelper accState = true ∧
    scope accState ≤ 5 ∧ nonHelperMask accState ≠ 0 ∧ nonHelperMask (withW { wave0 with hmask := 1 }) = 0 := by decide +kernel

/-- A format block: formats of A and B, accumulator, flags, k; codebook 0, scale offset 0x80, zero points at 0x100. -/
def fblk (a b acc fl k : Nat) : Nat := a + 2 ^ 8 * b + 2 ^ 16 * acc + 2 ^ 24 * fl + 2 ^ 48 * k + 2 ^ 192 * 0x80 + 2 ^ 224 * 0x100
/-- The state with a format block at local offset 64, named by the pair of s20; saturate off. -/
def withBlk (blk : Nat) : State :=
  { accState with w := { accState.w with sreg := [(20, 0x40), (48, 0x10000), (60, 1)], mode := 0x40 }
                  g := locPut base.g (cellsAt 0x40 (bytesOf 64 blk)) }
def blkOf (blk : Nat) : FmtBlk := blockOf (Claims.localSeen (withBlk blk) 64 64)

theorem witness_MatrixProductsIssue :
    (em (withBlk (fblk 10 10 1 4 128)) ≠ 0 ∧ xHeld (withBlk (fblk 10 10 1 4 128)) 15 = true ∧
      Claims.blockAt (withBlk (fblk 10 10 1 4 128)) 10 true (blkOf (fblk 10 10 1 4 128))) ∧
    (Claims.blockAt (withBlk (fblk 8 8 1 0 32)) 10 false (blkOf (fblk 8 8 1 0 32)) ∧ (blkOf (fblk 8 8 1 0 32)).acc = 1) ∧
    (let s := withBlk (fblk 2 3 0 0 16)
     let b := blkOf (fblk 2 3 0 0 16)
     Claims.blockAt s 10 false b ∧ b.acc = 0 ∧ b.flags = 0 ∧ b.k ≤ 16 ∧ rnd s ≤ 4 ∧ flush s = false) ∧
    (∀ acc ∈ [0, 2, 3],
      let blk := fblk 2 3 acc 7 32 + 2 ^ 128 * 2 + 2 ^ 144 * 2
      let s := { withBlk blk with w := { (withBlk blk).w with mode := 0x1040 } }
      let b := blkOf blk
      Claims.blockAt s 10 false b ∧ b.acc = acc ∧ b.acc ≠ 1 ∧ bit b.flags 0 = true ∧ bit b.flags 2 = true ∧ 16 < b.k ∧ rnd s ≤ 4 ∧
      flush s = true) := by decide +kernel

theorem witness_MatrixProductsIssue_streamed :
    (let s := withBlk (fblk 8 8 1 0 32)
     let b := blkOf (fblk 8 8 1 0 32)
     (XSrc.stream 0).assigned = true ∧ (XSrc.tile 2).assigned = true ∧ ((XSrc.stream 0).streamed || (XSrc.tile 2).streamed) = true ∧
     mmaHeld s 1 (.stream 0) (.tile 2) = true ∧ Claims.accessReady s 0 ∧ activeMask s ≠ 0 ∧ Claims.blockAt s 10 false b ∧
     (b.acc = 1 ∨ rnd s ≤ 4) ∧
     ∀ y ∈ mmaLines s (.stream 0) (.tile 2) 10 b, y.2.2 = .ok ((fun _ => from' 0x10000 16) y.1)) := by
  refine ⟨by decide +kernel, by decide +kernel, by decide +kernel, by decide +kernel, by decide +kernel, by decide +kernel,
    by decide +kernel, by decide +kernel, fun y hy => ok_of ?_⟩
  revert y; decide +kernel

/-! ## Witnesses: matrix work in flight, tiles, the state-space unit -/

/-- A beat that writes two words and a side element of row 0. -/
def beat (n : Nat) : Nat × Beat := (n, { words := [(0, 7), (31, 8)], sides := [(0, 9)] })
/-- A streamed product with lines to come. -/
def stream (todo : List StreamLine) : OpKind :=
  .stream { job := { x := 1, bin := none, fb := blkOf (fblk 8 8 1 0 32), rm := 0, fz := false, cb := [], sa := [], sb := [], mask := 1
                     act := 1, help := 0, a := none, b := some 2 }
            die := 0, todo := todo, got := [], held := [], bad := [] }

theorem witness_MatrixWorkIsWrittenBack :
    (let k : OpKind := .matrix 1 [beat 0, beat 1] 0x20
     Claims.mayPerform (flying k 6) (opOf 20 k 6) ∧ shareFree (flying k 6) (opOf 20 k 6) = true) ∧
    (let x : StreamLine := { key := 0, va := 0x10000, places := from' 0x10000 16 }
     let y : StreamLine := { key := 95, va := 2 ^ 45, places := from' (2 ^ 45) 16 }
     let k := stream [x, y]
     Claims.mayPerform (flying k 0) (opOf 20 k 0) ∧
     match k with
     | .stream j => j.todo = x :: [y] ∧ j.bad = [] ∧ lineReady (flying k 0) (opOf 20 k 0) j x = true ∧
       (pinLines (opOf 20 k 0) j x.places (flying k 0)).isSome = true ∧
       ∀ a ∈ x.places, paRegion a ≠ 2 → sectorDev (loadView (flying k 0) (opOf 20 k 0)) (a / 32) = 0
     | _ => False) := by
  refine ⟨by decide +kernel, by decide +kernel, ?_⟩
  exact (show _ ∧ _ ∧ _ ∧ _ ∧ _ from ⟨rfl, rfl, by decide +kernel, by decide +kernel, by decide +kernel⟩)

theorem witness_TileArithmeticAndMoves :
    (let s := withBlk (fblk 0 0 1 4 16)
     let b := blkOf (fblk 0 0 1 4 16)
     em s ≠ 0 ∧ xHeld s 15 = true ∧ b = blockOf (Claims.localSeen s (Claims.pairLocal s 10) 64) ∧
     (Claims.localSeen s (Claims.pairLocal s 10) 64)[2]?.any (fun y => decide (y.toNat < 4)) = true ∧
     b.flags < 8 ∧ Claims.pairLocal s 10 % 64 = 0 ∧ b.cscale % 4 = 0 ∧ b.czp % 4 = 0 ∧
     Claims.pairLocal s 10 + 64 ≤ s.g.desc.lsize ∧ b.cscale + 128 ≤ s.g.desc.lsize ∧ b.czp + 128 ≤ s.g.desc.lsize ∧ b.acc = 1) ∧
    (blkOf (fblk 0 0 0 0 16)).acc = 0 ∧ bit (blkOf (fblk 0 0 0 0 16)).flags 2 = false ∧
    xcvtOk 0 3 = true ∧ xcvtOk 6 1 = true ∧ xcvtOk 8 7 = true ∧ rnd accState ≤ 4 ∧ vHeld accState 127 = true := by decide +kernel

theorem witness_TileTransfers :
    Claims.accessReady accState 15 ∧ xHeld accState 15 = true ∧ activeMask accState ≠ 0 ∧ nonHelperMask accState ≠ 0 ∧
    (∀ r, r < 96 → lane (activeMask accState) r = true → ∀ y ∈ [(r, 128 * r, 128), (96 + r, 12288 + 4 * r, 4)],
      y.2.1 + y.2.2 ≤ accState.g.desc.lsize) ∧
    (∀ y ∈ [(0, 0, 128), (96, 12288, 4)], accessPhys accState .read y.2.1 y.2.2 = .ok (from' y.2.1 y.2.2) ∧
      accessPhys accState .write y.2.1 y.2.2 = .ok (from' y.2.1 y.2.2)) ∧
    (Claims.accessReady noneActive 0 ∧ activeMask noneActive = 0) ∧
    (let rows : List LaneAcc := [{ lane := 0, va := 0, bytes := from' 0 128 }, { lane := 191, va := 0x4000, bytes := from' 0x4000 4 }]
     let k : OpKind := .load false 128 false (.tile 15) rows
     Claims.mayPerform (flying k 0) (opOf 20 k 0) ∧ inOrder (flying k 0) blocksLoad (opOf 20 k 0) = true ∧
     queueOrdered (flying k 0) (opOf 20 k 0) = true ∧ (rows.map (·.lane)).Nodup ∧
     (fillFor (flying k 0) (opOf 20 k 0) (rows.flatMap (·.bytes))).isSome = true ∧
     ∀ y ∈ rows, y.lane < 192 ∧ y.bytes.length = (if y.lane < 96 then 128 else 4) ∧
       ∀ a ∈ y.bytes, paRegion a ≠ 2 → sectorDev (loadView (flying k 0) (opOf 20 k 0)) (a / 32) = 0) := by
  refine ⟨by decide +kernel, by decide +kernel, by decide +kernel, by decide +kernel, by decide +kernel, ?_, by decide +kernel,
    by decide +kernel⟩
  intro y hy
  simp only [List.mem_cons, List.not_mem_nil, or_false] at hy
  obtain rfl | rfl := hy <;> exact ⟨ok_of (by decide +kernel), ok_of (by decide +kernel)⟩

/-- A state descriptor at local offset 0x8000, named by the pair of s20: flags, L, N and P; Delta, x, B, C and h in memory. -/
def dsc (fl len n p : Nat) : Nat :=
  fl + 2 ^ 16 * len + 2 ^ 32 * n + 2 ^ 48 * p + 2 ^ 64 * 0x3F800000 + 2 ^ 96 * 0x4000 + 2 ^ 128 * 0x12000 + 2 ^ 192 * 0x10000 +
  2 ^ 256 * 0x10400 + 2 ^ 320 * 0x10800 + 2 ^ 384 * 0x10C00 + 2 ^ 448 * 0x14000 + 2 ^ 512 * 64 + 2 ^ 544 * 64 + 2 ^ 576 * 64 + 2 ^ 608 * 64
def scanState (d : Nat) : State :=
  { accState with w := { accState.w with sreg := [(20, 0x8000), (60, 1)] }, g := locPut base.g (cellsAt 0x8000 (bytesOf 128 d)) }

/-- The checks of a descriptor; the other part of the state-space readiness. -/
def scanReady (s : State) (scan : Bool) : Bool :=
  let bs := Claims.localSeen s (Claims.pairLocal s 10) 128
  decide (Claims.accessReady s 0 ∧ activeMask s ≠ 0 ∧ Claims.pairLocal s 10 % 128 = 0 ∧
    Claims.pairLocal s 10 + 128 ≤ s.g.desc.lsize ∧ steepDefect scan bs = none ∧
    field bs 15 12 + 4 * field bs 5 4 * field bs 7 6 ≤ s.g.desc.lsize)

def okJob (x : Except Trap SteepJob) : Bool :=
  match x with
  | .ok _ => true
  | .error _ => false

/-- The job that a state-space instruction issues with. -/
def jobOf (x : Except Trap SteepJob) : SteepJob :=
  match x with
  | .ok j => j
  | .error _ => { which := 0, chunked := false, len := 0, n := 0, p := 0, d := 0, gbf := false, xbf := false, ybf := false, localIn := false
                  localOut := false, lstate := 0, a := [], x := [], b := [], c := [], hIn := [], y := [], hOut := [] }
/-- That of SSLD, or of SSST; and that of SSCAN. -/
def moved (store : Bool) : SteepJob :=
  jobOf (moveJob (scanState (dsc 6 4 16 16)) store (Claims.localSeen (scanState (dsc 6 4 16 16)) 0x8000 128))
def scanned : SteepJob := jobOf (scanJob (scanState (dsc 6 4 16 16)) (Claims.localSeen (scanState (dsc 6 4 16 16)) 0x8000 128))

theorem witness_StateSpaceRuns :
    (let s := scanState (dsc 6 4 16 16)
     let bs := Claims.localSeen s (Claims.pairLocal s 10) 128
     scanReady s true = true ∧ steepForm s ≤ 2 ∧ okJob (scanJob s bs) = true ∧ scanReady s false = true ∧
     okJob (moveJob s false bs) = true ∧ okJob (moveJob s true bs) = true) ∧
    (∀ j ∈ [scanned, moved true, moved false],
      let k : OpKind := .steep j
      let o := opOf 20 k 0
      let s := flying k 0
      let as := unread o (spanPlaces (steepReads j))
      Claims.mayPerform s o ∧ inOrder s blocksLoad o = true ∧ queueOrdered s (readPart o as) = true ∧
      localFree s o j.lstate (if j.localIn || j.localOut then 4 * j.n * j.p else 0) = true ∧
      steepPoison (steepView s o) o j = none ∧ unitFree s o = true ∧ (steepFill o as s).isSome = true) ∧
    scanned.which = 0 ∧
    ((moved false).gbf = false ∧ (moved false).hIn ≠ [] ∧ (moved false).hIn.flatMap (·.places) ≠ [] ∧ (moved false).which = 1 ∧ (moved false).localIn = false ∧
      (moved false).localOut = true ∧ (moved false).y = [] ∧ (moved false).hOut = [] ∧
      ((moved false).hIn.flatMap (·.places)).length = 4 * (moved false).n * (moved false).p) ∧
    ((moved true).gbf = false ∧ (moved true).which = 2 ∧ (moved true).localIn = true ∧ (moved true).localOut = false ∧
      (moved true).y = [] ∧ ((moved true).hOut.flatMap (·.places)).length = 4 * (moved true).n * (moved true).p) ∧
    (let glob : List (Nat × Byte) := [(0x12000, 1)]
     let k : OpKind := .stateOut glob [(0x4000, 2)] 0x10
     Claims.mayPerform (flying k 0) (opOf 20 k 0) ∧ steepFree (flying k 0) (opOf 20 k 0) glob = true ∧ (opOf 20 k 0).done = 0 ∧
     (writeFor (flying k 0) (opOf 20 k 0) (glob.map (·.1))).isSome = true ∧ (∀ c ∈ glob, paRegion c.1 ≠ 2) ∧
     ∀ c ∈ (opOf 20 k 0).got ++ glob, paRegion c.1 ≠ 1) ∧
    (let glob : List (Nat × Byte) := [(2 ^ 44, 1)]
     let k : OpKind := .stateOut glob [] 0
     steepFree (flying k 0) (opOf 20 k 0) glob = true ∧ (writeFor (flying k 0) (opOf 20 k 0) (glob.map (·.1))).isSome = true ∧
     ∃ c ∈ (opOf 20 k 0).got ++ glob, paRegion c.1 = 1) := by
  refine ⟨?_, ?_, ?_, ?_, ?_, ?_, ?_⟩ <;> decide +kernel

/-! ## Witnesses: events of the package, the host link, the fabric and contexts -/

/-- A module that is up: its dies and ports released and ready, context 0 active. -/
def up : State :=
  { pkg := { relIo := 3, relM := 0xFFFF, relC := 0xFFFFFFFF
             ready := { config := true, cdie := 0xFFFFFFFF, guyline := 0x20000, chan := BitVec.allOnes 256 } }
    host := { trained := 3, down := 1 }, ctxs := [(0, { state := 1, trapvec := 0x30000 }), (31, { state := 2 })] }
/-- The same with another package. -/
def upWith (p : Package) : State := { up with pkg := p }

/-- Compute die 31 alone holds line 0x200 modified. -/
def owned : State :=
  { up with
    coh := { l2 := [{ die := 31, line := 0x200, dstate := .m, coarse := false, owner := none, vector := 0, ptrs := [], cls := 0, pins := 0
                      txn := none, fwd := none }]
             home := [{ line := 0x200, hstate := .x, owner := some 31, sharers := 0, mods := [], overflow := false, dirty := false }] } }

theorem witness_PackageAndDieEvents :
    (upWith { power := false }).pkg.power = false ∧ (upWith {}).pkg.ready.config = false ∧ (upWith {}).pkg.store.image = none ∧
    (let p := (upWith { up.pkg with relIo := 1, relM := 0, relC := 0 }).pkg
     p.ready.config = true ∧ p.cfg.iofence.getLsbD 1 = false ∧ p.relIo.getLsbD 1 = false ∧
     p.relIo.getLsbD (0 : Nat) = true ∧ p.cfg.iodie[1]? = some 1 ∧ p.late = []) ∧
    (let p := (upWith { up.pkg with relIo := 0 }).pkg
     p.relIo.getLsbD 0 = false ∧ 0 = up.host.active) ∧
    up.svc.offline.getLsbD 15 = false ∧ up.pkg.late = [] ∧
    (let p := (upWith { up.pkg with relM := 0x7FFF, relC := 0 }).pkg
     p.cfg.mfence.getLsbD 15 = false ∧ p.relM.getLsbD 15 = false ∧ p.cfg.mdie[15]? = some 15 ∧
     ∀ i, i < 2 → p.relIo.getLsbD i = true ∨ p.cfg.iofence.getLsbD i = true) ∧
    (let p := (upWith { up.pkg with relC := 0x7FFFFFFF }).pkg
     p.cfg.cfence.getLsbD 31 = false ∧ p.fencedC.getLsbD 31 = false ∧ p.relC.getLsbD 31 = false ∧ p.cfg.cdie[31]? = some 31 ∧
     ∀ m, m < 16 → p.relM.getLsbD m = true ∨ p.cfg.mfence.getLsbD m = true) ∧
    (up.pkg.relM.getLsbD 15 = true ∧ up.pkg.cfg.mfence.getLsbD 15 = false ∧ up.pkg.cfg.chfence.getLsbD (16 * 15 + 15) = false) ∧
    (owned.pkg.ready.cdie.getLsbD 31 = true ∧ owned.w.status = .idle ∧ owned.groups = [] ∧ owned.records = [] ∧ owned.ops = [] ∧
      owned.pkg.cfg.cfence.getLsbD 31 = false ∧ owned.pkg.fencedC.getLsbD 31 = false ∧ owned.pkg.late = [] ∧
      (∀ o ∈ ({ owned with ops := [keyOp] } : State).ops, o.die ≠ 31) ∧
      owned.pkg.cfg.cdie[31]? = some 31 ∧ paModule (128 * 0x200) = owned.fab.module ∧ (homeGet owned 0x200).hstate = .x ∧
      (homeGet owned 0x200).owner = some 31 ∧ paRegion (128 * 0x200) = 0 ∧
      (l2Get owned 31 0x200).dstate = .m) := by
  refine ⟨?_, ?_, ?_, ?_, ?_, ?_, ?_, ?_, ?_, ?_, ?_⟩ <;> decide +kernel

/-- A firmware image. -/
def img (v : Nat) : Image := { version := v, bytes := [1, 2], sig := [3] }

/-- The staged image is of any version and digest, with any signature: what its header says is not given (log 8). -/
theorem witness_RecoveryAndAttestation :
    (let s := { upWith { rcv := { state := 4, attempts := 2 } } with host := {} }
     s.pkg.rcv.state ≠ 0 ∧ s.pkg.ready.config = false ∧ s.pkg.rcv.port = 0 ∧ s.host.trained.getLsbD 0 = false ∧
     (s.pkg.rcv.state = 1 ∨ s.pkg.rcv.state = 4) ∧ s.pkg.rcv.attempts < 3) ∧
    (2 ^ 26 < (0x4000001 : Word).toNat ∧ (0x4000000 : Word).toNat ≤ 2 ^ 26 ∧ (upWith { rcv := { state := 2 } }).pkg.rcv.state = 2) ∧
    (sha512 [1] = Config.imageDigest [1] ∨ sha512 [1] ≠ Config.imageDigest [1]) ∧
    (signatureOk [1] (Config.imageSignature [1]) = false ∨ signatureOk [1] (Config.imageSignature [1]) = true) ∧
    (Config.imageVersion [1] < (upWith { store := { imgCounter := Config.imageVersion [1] + 1 } }).pkg.store.imgCounter ∧
      (upWith { store := { imgCounter := Config.imageVersion [1] } }).pkg.store.imgCounter ≤ Config.imageVersion [1]) ∧
    (let p := (upWith { rcv := { state := 3, accepted := some (img 5) } }).pkg
     p.rcv.state = 3 ∧ p.firstC = false ∧ p.rcv.accepted = some (img 5)) ∧
    (upWith { firstC := true }).pkg.firstC = true ∧ (upWith {}).pkg.rcv.state ≠ 3 ∧
    ((upWith {}).host.trained.getLsbD (upWith {}).host.active = true ∧ (upWith {}).pkg.relIo.getLsbD (upWith {}).host.active = false) ∧
    (up.host.trained.getLsbD up.host.active = true ∧ up.pkg.relIo.getLsbD up.host.active = true) ∧
    (let p := (upWith { store := { image := some (img 5) } }).pkg
     p.rcv.accepted = none ∧ p.store.image = some (img 5)) := by
  refine ⟨by decide +kernel, by decide +kernel, Classical.em _, ?_, ⟨Nat.lt_succ_self _, Nat.le_refl _⟩, by decide +kernel,
    by decide +kernel, by decide +kernel, by decide +kernel, by decide +kernel, by decide +kernel⟩
  cases signatureOk [1] (Config.imageSignature [1]) <;> simp

theorem witness_HostLinkEvents :
    (up.pkg.ready.config = true ∧ up.pkg.cfg.iofence.getLsbD 1 = false ∧ up.pkg.relIo.getLsbD 1 = true ∧ up.pkg.cfg.iodie[1]? = some 1) ∧
    (upWith { up.pkg with relIo := 0 }).host.active = 0 ∧
    up.host.trained.getLsbD 1 = true ∧ up.host.trained.getLsbD (1 - up.host.active) = true ∧
    up.host.down.getLsbD up.host.active = true ∧ up.pkg.cfg.iodie[17 / 9]? = some 1 ∧ up.pkg.relIo.getLsbD 1 = true ∧ up.pkg.ready.guyline.getLsbD 17 = true ∧
    ((upWith {}).pkg.relIo.getLsbD (upWith {}).host.active = false ∧ (upWith {}).pkg.rcv.state = 0) ∧
    ((upWith { rcv := { state := 1 } }).pkg.rcv.state ≠ 0 ∧ (upWith { rcv := { state := 1 } }).pkg.ready.config = false ∧
      0x3FFFFFF + ([7] : List Byte).length ≤ 2 ^ 26) ∧
    (let s := { up with host := { up.host with bar2Base := 0x1000000 } }
     s.pkg.relIo.getLsbD s.host.active = true ∧ s.svc.redirect = [] ∧ Claims.noEngineOwns s ∧ 0xFFFFFF + 1 ≤ 2 ^ s.host.bar2Size ∧
     2 ^ s.host.bar2Size < 0xFFFFFFFFF + 2 ∧ s.host.bar2Base + 0xFFFFFF + 1 ≤ 2 ^ 40 ∧
     (∀ i, i < 1 → channelReady s (s.host.bar2Base + 0xFFFFFF + i) = true) ∧
     ∀ i, i < 1 → paRegion (s.fab.module * 2 ^ 46 + s.host.bar2Base + 0xFFFFFF + i) ≠ 2 ∧
       sectorDev s ((s.fab.module * 2 ^ 46 + s.host.bar2Base + 0xFFFFFF + i) / 32) = 0) := by decide +kernel

/-- A store to module 1 in flight, alone, under a key of the wave, and a line of this module that module 5 holds modified. -/
def remoteOp : Op :=
  { opOf 20 (.store false [(2 ^ 46, 1)]) 1 with
    tag := some { handle := 0, slot := 2, gen := 0 }, accs := [{ lane := 0, va := 0, bytes := [2 ^ 46] }] }
def remote : State :=
  { accState with
    pkg := up.pkg, ops := [remoteOp]
    coh := { home := [{ line := 0x203, hstate := .x, owner := some 69, sharers := 0, mods := [], overflow := false, dirty := false }] } }

theorem witness_FabricAndRegisterEvents :
    ((5 : Nat) ≠ remote.fab.module ∧ remote.fab.red = [] ∧ (homeGet remote 0x203).owner = some (64 + 5) ∧
      (homeGet remote 0x203).hstate = .x) ∧
    (Claims.mayPerform remote remoteOp ∧ remote.ops = [remoteOp] ∧ remoteOp.strong = false ∧ remoteOp.once = false ∧ remoteOp.done < 5 ∧
      remoteOp.late = none ∧ remoteOp.accs ≠ [] ∧ (∀ a ∈ remoteOp.accs, ∃ x ∈ a.bytes, paModule x ≠ remote.fab.module) ∧ remoteOp.tag = some { handle := remote.w.handle, slot := 2, gen := 0 } ∧
      remote.w.keys.faults.length < 4) ∧
    up.pkg.relIo.getLsbD up.host.active = true ∧ (upWith {}).ctxs ≠ [] ∧ ({ up with ctxs := [] } : State).ctxs = [] ∧
    intlvValid 0x55555555 = true ∧ intlvValid 0 = true ∧ intlvValid 0x12345678 = false ∧ 
    ((ctxGet up 1).state = 0 ∧ (ctxGet up 31).state ≠ 0) ∧
    Tab.get 0 up.fab.route 63 ≠ (0x20000 : BitVec 64).extractLsb' 0 18 ∧ (4096 : BitVec 64).toNat ≤ 4096 ∧ Tab.get 0 up.svc.lend 15 ≤ (4096 : BitVec 64).toNat ∧
    ((upWith {}).pkg.relIo.getLsbD (upWith {}).host.active = false ∧ (upWith {}).pkg.rcv.state = 0) ∧
    (let s := { up with fab := { red := [(255, { members := 1, result := 0x1000 }), (7, { enable := true })] } }
     (redGet s 255).enable = false ∧ (redGet s 7).enable = true ∧
     (let v : BitVec 64 := 0xFFFFFFFF00000100
      v.getLsbD 8 = true ∧
      redEnableOk s (redGet s 255) (bits v.toNat 3 0) (bits v.toNat 7 4) = true)) := by decide +kernel

/-- Group 255 with its members and contributions. -/
def round (op : Nat) (members : BitVec 64) (cs : List (Nat × BitVec 64)) : State :=
  { fab := { red := [(255, { enable := true, members := members, result := 0x1000, op := op, seq := 3, contribs := cs })] } }

theorem witness_ReductionRounds :
    (let g := redGet (round 0 (2 ^ 63 ||| 1) [(0, 5)]) 255
     g.enable = true ∧ (3 : Word) = g.seq ∧ g.members.getLsbD 63 = true ∧ (∀ c ∈ g.contribs, c.1 ≠ 63) ∧ g.contribs ≠ [] ∧
     (∃ c ∈ g.contribs, c.1 = 0) ∧ (4 : Word) ≠ g.seq ∧ g.members.getLsbD 1 = false ∧
     g.result.toNat % 32 = 0 ∧ paRegion g.result.toNat = 0 ∧ Claims.noEngineOwns (round 0 0 [])) ∧
    (redGet (round 0 1 []) 254).enable = false ∧
    (let g := redGet (round 0 (BitVec.twoPow 64 63) [(63, 9)]) 255
     g.enable = true ∧ g.members = BitVec.twoPow 64 63 ∧ g.contribs = [(63, 9)]) ∧
    (∀ op ∈ [0, 3, 5],
      let g := redGet (round op (BitVec.twoPow 64 0 ||| BitVec.twoPow 64 63) [(63, 0x7FFFFFFFFFFFFFFF), (0, 1)]) 255
      g.enable = true ∧ g.members = BitVec.twoPow 64 0 ||| BitVec.twoPow 64 63 ∧ g.contribs = [(63, 0x7FFFFFFFFFFFFFFF), (0, 1)] ∧
      g.type = 0 ∧ g.op = op) := by decide +kernel
/-! ## Witnesses: contexts, queues, phases -/

/-- A context descriptor at 0x10000: span one die, first die 1. -/
def ctxBytes : List Byte :=
  bytesOf 1 0 ++ bytesOf 1 1 ++ bytesOf 2 0 ++ bytesOf 4 0 ++ bytesOf 8 0x100000 ++ bytesOf 8 0x20000 ++ bytesOf 8 0x30000 ++
  List.replicate 96 0
def ctxWith (span : Nat) : State :=
  { up with mem := { cells := cellsAt 0x10000 (bytesOf 1 span ++ ctxBytes.drop 1) }
            pkg := { up.pkg with ready := { up.pkg.ready with disp := 0xFFFFFFFF, mbase := 0xFFFF, mcache := 0xFFFF } }
            svc := { intlv := 0 }, ctxs := [(0, { state := 2, first := 4 }), (28, { state := 1, destroying := true }),
                                        (30, { state := 1, destroying := true, byHost := true }), (31, { state := 1, first := 9, suspending := true })]
            queues := [{ idleQueue 900 31 0 with ring := 0x10000, windex := 0x10008 }]
            xlt := { die := [(7, [{ ctx := 31, va := 0, size := 12, pa := 0, cls := 0, unc := false, x := true, w := true, rd := true }])] }
            grids := [{ ctx := 31, queue := 0, packet := 3, gx := 2, gy := 1, gz := 1, args := 0, done := 0, spill := 0, priv := 0, flags := 0
                        desc := {}, next := 0, retired := 0, err := false, preempted := false }] }

theorem witness_ContextCommands :
    up.pkg.relIo.getLsbD up.host.active = true ∧ up.host.ctxBusy = false ∧ up.host.suspBusy = false ∧ (ctxGet up 31).state ≠ 0 ∧
    createResult (ctxWith 3) 5 (ctxDesc (ctxWith 3) (0x1007F / 128 * 128)) ≠ 0 ∧
    (createResult (ctxWith 0) 5 (ctxDesc (ctxWith 0) (0x1007F / 128 * 128)) = 0 ∧ (ctxDesc (ctxWith 0) (0x1007F / 128 * 128)).isSome = true) ∧
    (ctxGet (ctxWith 0) 5).state = 0 ∧ ((ctxGet (ctxWith 0) 30).destroying = true ∧ (ctxGet (ctxWith 0) 30).byHost = true ∧
      (∀ o ∈ (ctxWith 0).ops, handleCtx o.owner = 30 → noAccess (ctxWith 0) o = true ∨ settled (ctxWith 0) o = true)) ∧
    (ctxGet (ctxWith 0) 28).destroying = true ∧ (ctxGet (ctxWith 0) 31).destroying = false ∧ (ctxGet (ctxWith 0) 0).destroying = false ∧
    (∀ o ∈ (ctxWith 0).ops, handleCtx o.owner = 31 → settled (ctxWith 0) o = true) ∧
    (ctxGet (ctxWith 0) 31).state = 1 ∧ (ctxGet (ctxWith 0) 31).suspending = true ∧ (∀ g ∈ allGroups (ctxWith 0), g.ctx ≠ 31) ∧
    (ctxGet (ctxWith 0) 0).state = 2 ∧ spanBound (ctxWith 0) (ctxGet (ctxWith 0) 0) = true ∧
    (∀ d ∈ ctxDies (ctxGet (ctxWith 0) 0), (ctxWith 0).pkg.cfg.cdie[d]? = some d ∧ d < 32 ∧ (ctxWith 0).pkg.fencedC.getLsbD d = false ∧
      (ctxWith 0).pkg.cfg.cfence.getLsbD d = false) ∧
    (ctxWith 0).grids.map (fun g => (g.next, g.gx * g.gy * g.gz)) = [(0, 2)] ∧ ¬(2 < 2) ∧ (ctxWith 0).records = [] ∧
    (let s := { ctxWith 0 with pkg := { up.pkg with fencedC := 0x10, cfg := { up.pkg.cfg with cdie := List.replicate 32 255 } } }
     spanBound s (ctxGet s 0) = false) ∧
    (∀ g ∈ (ctxWith 0).grids, g.ctx = 31 → g.queue = 0 → g.packet ≠ 4) ∧
    (∃ y, ctxQueue (ctxWith 1) 31 0 = some y ∧ findQueue (ctxWith 1) y.gq = some y ∧ queuedGrid (ctxWith 1) y 4 = true ∧ y.preempts = []) ∧
    (ctxQueue (ctxWith 0) 31 0).any (fun y => queuedGrid (ctxWith 0) y 4) = false ∧
    ((ctxWith 0).grids.map (fun g => (g.ctx, g.queue, g.packet, g.preempted)) = [(31, 0, 3, false)]) := by decide +kernel

/-- Queue 130 of context 0 on dispatch unit 1: ring 0x40000 of 16 slots, indices at 0x41000 and 0x41080, record at 0x41100. -/
def queue0 : Queue :=
  { idleQueue 130 0 2 with
    ring := 0x40000, windex := 0x41000, rindex := 0x41080, errrec := 0x41100, slots := 4, enable := true, next := 3, devFed := true }
/-- A grid descriptor of one wave, and a grid packet that names it at 0x50000. -/
def descBytes : List Byte := bytesOf 8 0x10000 ++ bytesOf 1 1 ++ bytesOf 3 0 ++ bytesOf 4 1024 ++ List.replicate 112 0
def packetBytes : List Byte :=
  bytesOf 4 1 ++ bytesOf 4 1 ++ bytesOf 4 1 ++ bytesOf 4 1 ++ bytesOf 8 0x50000 ++ List.replicate 40 0
def grid0 (flags : Nat) : Grid :=
  { ctx := 0, queue := 2, packet := 2, gx := 1, gy := 1, gz := 1, args := 0, done := 0, spill := 0, priv := 0, flags := flags
    desc := { addr := 0x50000, entry := 0x10000, waves := 1, lsize := 1024, counts := List.replicate 16 (1, 0) }
    next := 0, retired := 0, err := false, preempted := false }
def queueState (pkt : List Byte) (gs : List Grid) : State :=
  { pkg := { ready := { cdie := 0xFFFFFFFF } }, xlt := { die := [(1, [page])], core := [(0, [page])] }
    ctxs := [(0, { state := 1, first := 1, phrArea := 0x0000500000100000, qtable := 0x42000, trapvec := 0x30000 })]
    queues := [queue0], grids := gs
    mem := { cells := cellsAt 0x400C0 pkt ++ cellsAt 0x41000 (bytesOf 8 4) ++
               cellsAt 0x42080 (bytesOf 8 0x40000 ++ bytesOf 8 0x41000 ++ bytesOf 8 0x41080 ++ bytesOf 8 0x41100 ++ bytesOf 1 4 ++ bytesOf 1 0x80) ++
               cellsAt 0x50000 descBytes }
    coh := { monitors := [{ line := 0x200, die := 1, woken := true }], polling := [(1, 0x200)] } }
/-- Which kind of packet heads the ring. -/
def headKind (s : State) : Nat :=
  match headPacket s queue0 with
  | .none => 0
  | .unready => 4
  | .grid _ => 1
  | .wait _ _ => 2
  | .error _ => 3

theorem witness_QueueEvents :
    (let s := queueState packetBytes []
     findQueue s 130 = some queue0 ∧ queueRuns s queue0 = true ∧ waitMet s queue0 = true ∧ headKind s = 1 ∧ handleTaken s queue0 = false) ∧
    headKind (queueState (bytesOf 8 2 ++ bytesOf 8 5 ++ bytesOf 8 0x10000 ++ List.replicate 40 0) []) = 2 ∧
    headKind (queueState (bytesOf 8 3 ++ List.replicate 56 0) []) = 3 ∧ headKind (queueState (List.replicate 64 0) []) = 4 ∧
    headKind ({ queueState [] [] with mem := {} } : State) = 0 ∧ Claims.noEngineOwns (queueState [] []) ∧
    (let s := queueState (List.replicate 64 0) []
     (unitRead s 1 0 0x41100 4).map numOf = some 0 ∧ unitRead s 1 0 (0x40000 + 64 * (3 % 2 ^ 4)) 1 = some [0] ∧
     unitRead (queueState packetBytes []) 1 0 (0x40000 + 64 * (3 % 2 ^ 4)) 1 = some [1] ∧ Claims.waitsStand s ∧
     ((unitRead s 1 0 (0x42000 + 64 * 2) 64).any (fun ds => (queueOf { queue0 with code := 4 } ds).enable && !queueBad ds)) = true ∧
     { queue0 with code := 4 }.code ≠ 0 ∧ { queue0 with code := 4 }.code ≠ 7 ∧
     (s.coh.polling.contains (1, 0x200) = true ∧ ({ s with coh := { s.coh with monitors := [] } } : State).coh.monitors = []) ∧
     ∀ m ∈ s.coh.monitors, m.line = 0x200 ∧ m.woken = true ∧ m.die = queue0.server) := by decide +kernel

theorem witness_QueueEvents_placement :
    (let s := queueState [] [grid0 0]
     headGrid s queue0 = some (grid0 0) ∧ queueRuns s queue0 = true ∧ windowRoom queue0 = true ∧
     (ctxDies (ctxGet s 0)).contains 1 = true ∧ mayTake s 1 31 (2 ^ 64 + 130) (candidates s 0) = true ∧
     fits s 1 31 (launchGroup s (grid0 0) 0 0 0) = true ∧ (recordRoom s 0 (recordSize (grid0 0).desc)).isSome = true) ∧
    (let s := queueState [] [grid0 1]
     headGrid s queue0 = some (grid0 1) ∧ bit (grid0 1).flags 0 = true ∧ [63].length = (grid0 1).size ∧
     (∀ x ∈ [63], (ctxDies (ctxGet s 0)).contains (x / 32) = true) ∧
     ((candidates s 0).find? (fun x => x.prio == queue0.prio)).map (·.key) = some (2 ^ 64 + 130) ∧
     wholeWaits (candidates s 0) (2 ^ 64 + 130) = false ∧ (∀ x ∈ [63], noneAbove s (x / 32) (x % 32) queue0.prio (candidates s 0) = true) ∧
     (placeAll (grid0 1) [63] 0 s).isSome = true) ∧
    (let k : OpKind := .launch []
     let x : OpKind := .launch [(0, 0x12345640)]
     let t := flying x 0
     Claims.mayPerform (flying k 0) (opOf 20 k 0) ∧ (opOf 20 k 0).rejoined = none ∧ Claims.noEngineOwns t ∧ (launchCheck (flying k 0) []).toOption.isSome = true ∧
     Claims.mayPerform t (opOf 20 x 0) ∧ (launchCheck t [(0, 0x12345640)]).toOption.isNone = true ∧ t.ops = [opOf 20 x 0] ∧
     t.w.trap.on = false ∧ (ctxGet t t.g.ctx).trapvec ≠ 0 ∧
     ({ t.w with status := .waiting (.strong 20) } : Wave).status = .waiting (.strong (opOf 20 x 0).id)) := by decide +kernel

/-- A group of one wave on core 2 of die 1, with its record at offset 8192, and the state with its wave standing so. -/
def group0 : Group :=
  { ctx := 0, queue := 2, packet := 1, linear := 4, die := 1, core := 2
    desc := { waves := 1, lsize := 4096, carried := 64, counts := List.replicate 16 (1, 0) } }
def record0 (x : Option Group) (h : BitVec 64) : Record :=
  { ctx := 0, off := 8192, size := 8192, epoch := 1, handle := h, selector := 0, kind := 1, phase := 0, heldBack := false, saved := x }
def resident (st : Status) (trap pre ended due : Bool) : State :=
  let g := { group0 with preempt := if pre then some 5 else none, phaseOver := ended, saveDue := due }
  { w := { wave0 with status := st, handle := handleOf g 0, vblocks := 1, tiles := 0, trap := { on := trap } }, g := g
    pkg := { ready := { cdie := 0xFFFFFFFF } }
    ctxs := [(0, { state := 1, first := 1, phrArea := 0x0000500000100000, trapvec := 0x30000 })]
    queues := [{ queue0 with vector := 5 }], records := [record0 none (groupHandle g)]
    slots := [{ die := 1, core := 2, slot := 0, active := [handleOf g 0], pending := [] }] }
/-- The committed group of another record. -/
def saved0 : Group := { group0 with linear := 9, peers := [{ wave0 with status := .ready, handle := handleOf { group0 with linear := 9 } 0, vblocks := 1, tiles := 0 }] }

theorem witness_PhasesSavesAndHalts :
    (let s := { resident .exited false false false false with records := [record0 (some saved0) (groupHandle saved0)] }
     ((recordOf s (groupHandle saved0)).bind (recordGroup s)).any (fun x => fits s 2 31 x) = true ∧ (ctxGet s 0).state = 1 ∧
     (ctxGet s 0).suspending = false ∧ (ctxGet s 0).destroying = false ∧ Claims.noEngineOwns s ∧
     (recordOf s (groupHandle saved0)).any (fun r => (recordGroup s r).any (fun x =>
       fits s 1 2 x && offered s r x 1 2 && mayTake s 1 2 (groupHandle saved0).toNat (candidates s 0))) = true ∧ (ctxDies (ctxGet s 0)).contains 1 = true ∧
     mayTake s 1 31 (groupHandle saved0).toNat (candidates s 0) = true ∧ fits s 1 31 saved0 = true) ∧
    (let s := resident .exited false false false false
     s.w.status ≠ .idle ∧ (∀ w ∈ (wholeGroup s).peers, w.status = .exited) ∧ groupQuiet s (groupHandle s.g) = true) ∧
    (let s := resident (.waiting .phaseEnd) false true true false
     (∀ w ∈ (wholeGroup s).peers, w.status = .exited ∨ w.status = .waiting .phaseEnd) ∧
     (∃ w ∈ (wholeGroup s).peers, w.status = .waiting .phaseEnd) ∧ s.g.phaseOver = true ∧ drained s (wholeGroup s) = true ∧
     (s.g.coresident = false ∨ s.g.preempt ≠ none) ∧ (recordOf s (groupHandle s.g)).isSome = true) ∧
    (∀ b ∈ [true, false],
      let s := resident .ready b true false true
      s.g.preempt ≠ none ∧ s.g.phaseOver = false ∧ (∃ w ∈ (wholeGroup s).peers, w.status ≠ .exited ∧ w.status ≠ .waiting .phaseEnd) ∧
      (∀ w ∈ (wholeGroup s).peers, w.trap.on = b) ∧ s.g.peers = [] ∧ s.w.ejected = [] ∧ s.w.stackDue = none ∧ Claims.noEngineOwns s ∧ s.g.saveDue = true ∧
      issuedDone s (wholeGroup s) = true ∧ (recordOf s (groupHandle s.g)).isSome = true) ∧
    (let s := resident .halted false false false false
     (∃ w ∈ (wholeGroup s).peers, w.status = .halted) ∧ (∀ o ∈ s.ops, groupOf o.owner = groupHandle s.g → settled s o = true) ∧
     (ctxQueue s s.g.ctx s.g.queue).map (·.vector) = some 5 ∧ 2 ≤ 5 ∧ 5 ≤ 2047) := by
  refine ⟨?_, ?_, ?_, ?_, ?_⟩ <;> decide +kernel
/-! ## Witnesses: translation, memory service, coherence -/

/-- Page tables with their root at 0x100000: a 2 MiB page at 0 and a pointer to 4 KiB pages at 2 MiB. -/
def tables : Tab Byte :=
  cellsAt 0x100000 (bytesOf 8 0x101001) ++ cellsAt 0x101000 (bytesOf 8 0x102001) ++
  cellsAt 0x102000 (bytesOf 8 (0x20003B + 9 * 2 ^ 60) ++ bytesOf 8 0x103001) ++ cellsAt 0x103000 (bytesOf 8 0)
def entryAt (ctx va : Nat) : TlbEntry :=
  { ctx := ctx, va := va, size := 0, pa := 0x5000, cls := 0, unc := false, x := true, w := true, rd := true }
def walked : State :=
  { accState with
    pkg := up.pkg, mem := { cells := tables }, ctxs := [(0, { state := 1, first := 1, ptroot := 0x100000 }), (3, { state := 2, first := 2 })]
    xlt := { core := [(33, [entryAt 0 0x1000, entryAt 3 0])], die := [(1, [entryAt 0 0x1000, entryAt 0 0x2000, entryAt 3 0])], va := 0x1FFF } }
def okWalk (x : Except XFault (TlbEntry × List WalkEntry)) : Bool :=
  match x with
  | .ok _ => true
  | .error _ => false

theorem witness_TranslationInvalidation :
    walked.pkg.relIo.getLsbD walked.host.active = true ∧ walked.xlt.busy = false ∧ (ctxGet walked 5).state = 0 ∧
    (ctxGet walked 0).state ≠ 0 ∧
    (∃ e ∈ Tab.get [] walked.xlt.die 1, e.ctx = 0 ∧ e.va < 0x1000 + 4096 ∧ 0x1000 < e.va + 4096) ∧
    (∃ e ∈ Tab.get [] walked.xlt.die 1, e.ctx = 0 ∧ ¬(e.va < 0x1000 + 4096 ∧ 0x1000 < e.va + 4096)) ∧
    (let o := opOf 20 (.store false []) 1
     let s := { walked with ops := [o], xlt := { walked.xlt with busy := true, waitOps := [20] } }
     s.xlt.busy = true ∧ findOp s o.id = some o ∧ o.id ∈ s.xlt.waitOps ∧ settled s o = false) ∧
    (let o := { opOf 20 (.store false [(0x5000, 1)]) 1 with accs := [{ lane := 0, va := 0x1FFF, bytes := [0x5000] }] }
     let s := { walked with ops := [o], xlt := { walked.xlt with busy := true, range := some (0, 0x1000, 4096) } }
     let t := { s with xlt := { s.xlt with range := some (0, 0x2000, 4096) } }
     rangePending s = true ∧ (∀ o ∈ t.ops, o.id ∈ t.xlt.waitOps → settled t o = true) ∧ rangePending t = false) ∧
    (∀ va ∈ [0x1FFFFF, 0x200000], (∀ e ∈ Tab.get [] walked.xlt.core 63, e.covers 0 va = false) ∧
      ∀ e ∈ Tab.get [] walked.xlt.die 1, e.covers 0 va = false) ∧
    okWalk (walk walked 1 0 0x1FFFFF) = true ∧ okWalk (walk walked 1 0 0x200000) = false := by decide +kernel

/-- The memory service: block 0 of die 1 alone lies outside its lend blocks, and one block of die 2 is lent. -/
def service : State := { walked with svc := { lend := [(1, 4095), (2, 1)] } }
def move0 (sw : Bool) (acks : List Nat) : Move :=
  { die := 1, block := 0, tdie := 2, tblock := 4095, switched := sw, acks := acks, back := false }
def serviceWith (v : MemSvc) : State := { service with svc := v }

theorem witness_MemoryServiceEvents :
    service.pkg.relIo.getLsbD service.host.active = true ∧ service.svc.busy = false ∧
    ¬((16 : Nat) < 16 ∧ 2 < 16 ∧ 0 < 4096 ∧ 4095 < 4096) ∧ freeLend service 2 4094 = false ∧ freeLend service 2 4095 = true ∧
    service.svc.offline.getLsbD 1 = false ∧ (serviceWith { service.svc with offline := 2 }).svc.offline.getLsbD 1 = true ∧
    redirectOf (serviceWith { service.svc with redirect := [(4096, some (3, 4095))] }) 1 0 ≠ none ∧ redirectOf service 1 0 = none ∧
    service.svc.moves = [] ∧ service.svc.redirect = [] ∧ service.svc.goingOffline = none ∧
    (let s := serviceWith { service.svc with moves := [move0 false []] }
     s.svc.moves.find? (fun y => y.die == 1) = some (move0 false []) ∧
     (move0 false []).back = false ∧ { move0 false [] with back := true }.switched = false) ∧
    (let s := serviceWith { service.svc with offline := 2 }
     s.svc.offline.getLsbD 1 = true ∧ s.pkg.cfg.mdie[1]? = some 1 ∧ s.pkg.cfg.mfence.getLsbD 1 = false ∧
     s.pkg.relM.getLsbD 1 = true ∧ s.pkg.late = [] ∧ Claims.noEngineOwns s ∧ holdsBlocks s 1 = false ∧ 31 ∉ s.pkg.cfg.mdie) ∧
    (let s := serviceWith { service.svc with busy := true, moves := [move0 true [5]] }
     s.svc.moves = [move0 true [5]] ∧ (move0 true [5]).acks.erase 5 = [] ∧ (move0 true [5]).acks.erase 6 ≠ [] ∧
     (move0 true [5]).back = false ∧ s.svc.comingOnline = none) ∧
    (let s := { up with pkg := { up.pkg with cfg := { up.pkg.cfg with cdie := List.range 31 ++ [255], mdie := List.range 15 ++ [255] } } }
     (∃ g ∈ allGroups { s with groups := [{ die := 30 }] }, g.die = 30) ∧ s.pkg.remaps = [] ∧
     s.pkg.cfg.cdie[30]? = some 30 ∧ 31 ∉ s.pkg.cfg.cdie ∧ (∀ g ∈ allGroups s, g.die ≠ 30) ∧ 15 ∉ s.pkg.cfg.mdie) := by decide +kernel

/-- The line that MEM_ADDR names, with no block redirected. -/
theorem witness_MemoryServiceEvents_heal :
    let line := storagePlace service (service.fab.module * 2 ^ 46 + (serviceWith { service.svc with addr := 0x12345 }).svc.addr.toNat % 2 ^ 40 / 128 * 128)
    line % 128 = 0 ∧ paRegion line = 0 ∧ Claims.noEngineOwns service := by decide +kernel

theorem witness_MemoryServiceEvents_offline :
    (let s := serviceWith { service.svc with offline := 0xFFF9 }
     s.svc.offline.getLsbD 1 = false ∧ evacuate s 1 = [0] ∧ (evacSpace s 1).length = 1) ∧
    (let s := serviceWith { offline := 0xFFFD }
     (evacSpace s 1).length < (evacuate s 1).length) := by decide +kernel

/-- A die's line with its directory entry, on die 1, line 0x200. -/
def slice (st : DState) (owner : Option Nat) (ptrs : List Nat) (pins : Nat) (txn : Option Txn) (fwd : Option Nat) (l1 : List L1Line) : State :=
  let x : L2Line :=
    { die := 1, line := 0x200, dstate := st, coarse := false, owner := owner, vector := 0, ptrs := ptrs, cls := 0, pins := pins, txn := txn, fwd := fwd }
  { coh := { l1 := l1, l2 := [x] } }
def l1At (core : Nat) (st : L1State) : L1Line := { die := 1, core := core, line := 0x200, st := st, valid := 0xF }
def txn0 (evict : Bool) : Txn := { agent := 4, targets := [31], sent := 1, expect := 2, arrived := 1, evict := evict }

theorem witness_SliceEvents :
    (let s := slice .m (some 31) [] 0 none none [l1At 31 .m]
     let x := l2Get s 1 0x200
     paRegion (128 * 0x200) = 0 ∧ x.dstate ≠ .i ∧ x.txn = none ∧ x.fwd = none ∧ x.queue = [] ∧ quarterOk s 1 3 0x200 = true ∧
     ({ x with queue := [(4, true)] } : L2Line).queue ≠ [] ∧ l1Get s 1 3 0x200 = none ∧ x.owner = some 31 ∧
     x.pins = 0 ∧ l1Victim s 1 3 0x200 = none ∧ x.dstate = .m ∧ holders x 3 ≠ [] ∧ holders x 31 = [] ∧ holders x 99 ≠ [] ∧ l1Get s 1 31 0x200 = some .m) ∧
    (let x := l2Get (slice .e none [] 0 none none []) 1 0x200
     x.owner = none ∧ holders x 3 = [] ∧ x.dstate = .e ∧ holders x 99 = []) ∧
    (let s := slice .s none [4] 1 none none [l1At 4 .s]
     let x := l2Get s 1 0x200
     x.owner = none ∧ takeFree s 1 0x200 = true ∧ ¬(holders x 3 = [] ∧ (x.dstate = .e ∨ x.dstate = .m)) ∧ l1Get s 1 4 0x200 = some .s ∧ (fetchHeld s 1).count 0x200 < x.pins) ∧
    (∀ st ∈ [L1State.e, .m],
      let s := slice .m (some 31) [] 0 none (some 3) [l1At 31 st]
      let x := l2Get s 1 0x200
      x.fwd = some 3 ∧ x.owner = some 31 ∧ l1Get s 1 31 0x200 = some st) ∧
    (∀ b ∈ [true, false],
      let x := l2Get (slice .s none [31] 0 (some (txn0 b)) none [l1At 31 .s]) 1 0x200
      x.fwd = none ∧ x.queue = [] ∧ takeFree (slice .s none [31] 0 (some (txn0 b)) none [l1At 31 .s]) 1 0x200 = true ∧
      x.txn = some (txn0 b) ∧ 31 ∈ (txn0 b).targets ∧ x.pins = 0 ∧ 0 < (txn0 b).sent ∧ (txn0 b).arrived + 1 = (txn0 b).expect) ∧
    (let y : Txn := { txn0 false with expect := 3 }
     0 < y.sent ∧ y.arrived + 1 ≠ y.expect) ∧
    (let s := slice .m (some (32 + 31)) [] 0 none none []
     (l2Get s 1 0x200).owner = some (32 + 31) ∧ copyOwning s none 1 (32 + 31) 0x200 = none ∧ (∀ p ∈ s.ops, p.fault = none)) ∧
    (let y : Txn := { txn0 false with targets := [31, 63] }
     let x := l2Get (slice .m none [] 0 (some y) none []) 1 0x200
     engineOwns x = false ∧ x.txn = some y ∧ y.targets.find? (fun a => decide (32 ≤ a)) = some 63) := by
  refine ⟨?_, ?_, ?_, ?_, ?_, ?_, ?_, ?_⟩ <;> decide +kernel

/-- A COPY of the engine of core 31 of die 1 is about to write the line, which no one holds in an L1. -/
theorem witness_SliceEvents_engine :
    let j : CopyJob := { srcLocal := true, dstLocal := false, report := none, src := 0, dst := 0x10000, len := 0x80, rows := 1, sstride := 0, dstride := 0
                         ctx := 0, die := 1, core := 31, group := 0, written := [], bad := none }
    let s := { accState with
      ops := [opOf 20 (.copy j) 0], xlt := { core := [(63, [page])] }
      coh := { l2 := [{ die := 1, line := 0x200, dstate := .m, coarse := false, owner := none, vector := 0, ptrs := [], cls := 0, pins := 0
                        txn := none, fwd := none }] } }
    (copyOwning s none 1 63 0x200).isSome = true ∧ s.coh.l2.countP (fun y => y.die == 1 && y.owner == some 63) < 256 ∧
    holders (l2Get s 1 0x200) 63 = [] ∧ (l2Get s 1 0x200).dstate = .m := by decide +kernel

/-- Line 0x200 of this module: its entry at home, and the lines of dies 31 and 2. -/
def homed (st : HState) (owner : Option Nat) (sharers : BitVec 32) (d2 : List (Nat × DState)) : State :=
  { coh := { home := [{ line := 0x200, hstate := st, owner := owner, sharers := sharers, mods := [], overflow := false, dirty := false }]
             l2 := d2.map (fun x => { die := x.1, line := 0x200, dstate := x.2, coarse := false, owner := none, vector := 0, ptrs := [],
                                      cls := 0, pins := 0, txn := none, fwd := none }) } }

theorem witness_HomeEvents :
    (paRegion (128 * 0x200) = 0 ∧ paModule (128 * 0x200) = ({} : State).fab.module ∧ (31 : Nat) < 32 ∧ 2 ≠ 31) ∧
    (let s : State := {}
     let e := homeGet s 0x200
     (l2Get s 31 0x200).dstate = .i ∧ e.hstate = .i ∧ e.sharers = 0 ∧ e.mods = [] ∧ e.overflow = false ∧
     readFreeFor s 31 0x200 = true ∧ readFreeFor s (64 + 5) 0x200 = true ∧ roomFree s 31 0 0x200 = true ∧ takeFree s 31 0x200 = true ∧
     takeFree s nobody 0x200 = true ∧ takeFree s (64 + 5) 0x200 = true ∧ storageLine s 0x200 = 0x200 ∧
     lineBusy (l2Get s 31 0x200) = false) ∧
    (let s := homed .x (some 2) 0 [(2, .m)]
     (l2Get s 31 0x200).dstate = .i ∧ (homeGet s 0x200).hstate = .x ∧ (homeGet s 0x200).owner = some 2 ∧ (l2Get s 2 0x200).dstate = .m ∧
     readFreeFor s 31 0x200 = true ∧ roomFree s 31 0 0x200 = true ∧
     ∀ st ∈ [L1State.e, .m],
       let t := { s with coh := { s.coh with l2 := s.coh.l2.map (fun x => { x with owner := some 7 })
                                             l1 := [{ die := 2, core := 7, line := 0x200, st := st, valid := 0xF }] } }
       (l2Get t 2 0x200).owner = some 7 ∧ l1Get t 2 7 0x200 = some st ∧ (l2Get t 2 0x200).dstate = .m) ∧
    (let s := homed .s none (BitVec.twoPow 32 31) [(31, .s)]
     (l2Get s 31 0x200).dstate = .s ∧ (homeGet s 0x200).hstate = .s ∧ (homeGet s 0x200).sharers = BitVec.twoPow 32 31 ∧
     (homeGet s 0x200).mods = [] ∧ (homeGet s 0x200).overflow = false ∧ takeFree s 31 0x200 = true ∧ mayLeave s 31 0x200 = true) ∧
    (let s := homed .o (some 31) 4 [(31, .o), (2, .s)]
     (l2Get s 31 0x200).dstate = .o ∧ (homeGet s 0x200).owner = some 31 ∧ (l2Get s 2 0x200).dstate = .s ∧ (homeGet s 0x200).hstate = .o ∧
     mayLeave s 2 0x200 = true ∧ mayLeave s 31 0x200 = true) ∧
    (homeGet (homed .x (some (64 + 3)) 0 []) 0x200).owner = some (64 + 3) ∧
    (homeGet (homed .x (some (64 + 3)) 0 []) 0x200).hstate = .x := by decide +kernel
/-! ## Witnesses: the request engine, slots, ejected lanes, the whole machine -/

/-- A chain at local offset 0x100, where an entry stands; a barrier at 0x40 with two pending arrivals. -/
def chain0 : Chain :=
  { id := 30, owner := 0, group := 0, ctx := 0, die := 0, core := 0, scope := 0, next := 0x100, loops := [], holding := false, waits := none }
def engineWith (entry : List Byte) (lsize : Nat) : State :=
  let b : Bar := { phase := 15, reload := 2, arrivals := 2, sectors := 0, expected := 0, yielded := 0 }
  { w := wave0, ctxs := base.ctxs, chains := [chain0]
    g := locPut (locPut { desc := { waves := 1, lsize := lsize } } (cellsAt 0x100 entry)) (cellsAt 0x40 (bytesOf 16 b.pack)) }
def entryOf (s : State) : Option Entry64 := entry64 ((List.range 64).map (fun i => locByte s.g (0x100 + i))) 0x100 []
/-- The kind of entry. -/
def entryKind (e : Option Entry64) : Nat :=
  match e with
  | none => 0
  | some (.loop n _) => if n = 0 then 1 else 2
  | some (.cond _ k _ off _) => if k = 0 ∧ off = 0x17C then 3 else 9
  | some (.copy j _ _ _ k _) => if k = 0 ∧ j.srcLocal = true ∧ j.dstLocal = true ∧ j.report = none then (if j.len = 0 then 5 else 4) else 9
  | _ => 8
def copy0 : CopyJob :=
  { srcLocal := true, dstLocal := true, report := none, src := 0, dst := 0x60, len := 0x20, rows := 1, sstride := 0, dstride := 0, ctx := 0, die := 0
    core := 0, group := 0, written := [], bad := none }

theorem witness_EngineWalksAndCopies :
    (let s := engineWith (6 :: List.replicate 63 0) 0x140
     Claims.ownFocus s ∧ (∀ p ∈ s.ops, p.fault = none) ∧ s.chains = [chain0] ∧ chain0.owner = s.w.handle ∧ chain0.group = groupHandle s.g ∧
     chain0.next + 64 ≤ s.g.desc.lsize ∧ (List.range 64).map (fun i => locByte s.g (0x100 + i)) = 6 :: List.replicate 63 0 ∧
     s.g.saveDue = false ∧ entryTorn s chain0 = false ∧ chainWave s chain0 = s.w ∧ s.w.keys.faults.length < 4 ∧ memberRoom s s.w 15 = true ∧
     allPerformed s s.w 0 (membersOf s s.w 15) = true ∧
     (let t := { s with w := { s.w with keys := keyed.w.keys }, ops := [{ keyOp with done := 0 }] }
      (∀ p ∈ t.ops, p.fault = none) ∧ allPerformed t t.w 0 (membersOf t t.w 2) = false)) ∧
    (let s := { engineWith (bytesOf 4 3 ++ bytesOf 2 0 ++ bytesOf 2 1 ++ List.replicate 56 0) 0x180 with
                chains := [chain0, { chain0 with id := 31, start := 1 }] }
     s.chains = [chain0, { chain0 with id := 31, start := 1 }] ∧ chainRuns s chain0 = true ∧ chainReady s chain0 = true ∧
     chainReady s { chain0 with id := 31, start := 1 } = true) ∧
    (engineWith [] 0x13F).g.desc.lsize < chain0.next + 64 ∧ entryKind (entryOf (engineWith (7 :: List.replicate 63 0) 0x180)) = 0 ∧
    entryKind (entryOf (engineWith (bytesOf 4 3 ++ bytesOf 2 0 ++ bytesOf 2 1 ++ List.replicate 56 0) 0x180)) = 1 ∧
    entryKind (entryOf (engineWith (bytesOf 4 3 ++ bytesOf 2 65535 ++ bytesOf 2 1023 ++ List.replicate 56 0) 0x180)) = 2 ∧
    entryKind (entryOf (engineWith (bytesOf 1 4 ++ bytesOf 1 3 ++ bytesOf 2 0 ++ bytesOf 2 1 ++ bytesOf 2 0 ++ bytesOf 4 0x17C ++ List.replicate 52 0) 0x180)) = 3 ∧
    0x17C + 4 ≤ (engineWith [] 0x180).g.desc.lsize ∧
    entryKind (entryOf (engineWith (bytesOf 1 1 ++ bytesOf 1 3 ++ bytesOf 1 0xF0 ++ bytesOf 5 0 ++ bytesOf 8 0 ++ bytesOf 8 0x60 ++ bytesOf 4 0x20 ++
      List.replicate 36 0) 0x180)) = 4 ∧
    entryKind (entryOf (engineWith (bytesOf 1 1 ++ bytesOf 1 3 ++ bytesOf 1 0xF0 ++ bytesOf 5 0 ++ bytesOf 8 0 ++ bytesOf 8 0x60 ++ bytesOf 4 0 ++
      List.replicate 36 0) 0x180)) = 5 := by decide +kernel

theorem witness_EngineWalksAndCopies_performed :
    (let o := opOf 20 (.enq 0x100 0 0) 0
     let s := { engineWith [] 0x180 with ops := [o], chains := [] }
     Claims.ownFocus s ∧ findOp s 20 = some o ∧ waitsAt s (max o.scope 1) o = true ∧ (ctxGet s (handleCtx o.owner)).destroying = false) ∧
    (let o := opOf 20 (.copy copy0) 0
     let s := { engineWith [] 0x80 with ops := [o] }
     findOp s 20 = some o ∧ copy0.lost = [] ∧ o.done ≠ 5 ∧ s.g.desc.lsize ≤ 2 ^ 19 ∧ copy0.group = groupHandle s.g ∧ s.g.tbars = [] ∧ copy0.src + copy0.len ≤ s.g.desc.lsize ∧
     copy0.dst + copy0.len ≤ s.g.desc.lsize ∧ copy0.src + copy0.len ≤ copy0.dst) ∧
    (let o := opOf 20 (.arrive 0 0x40 none) 0
     let s := { engineWith [] 0x50 with ops := [o] }
     findOp s 20 = some o ∧ waitsDone s o = true ∧ s.held = [] ∧ 0x40 + 16 ≤ s.g.desc.lsize ∧
     Claims.barrierIs s.g 0x40 15 2 (1 + 1) 0 0 0) := by
  refine ⟨by decide +kernel, by decide +kernel, ?_⟩
  exact ⟨by decide +kernel, by decide +kernel, by decide +kernel, by decide +kernel, by rfl⟩

/-- Wave 0 stalled on a claim and active; wave 4 of its slot ready and pending. -/
def swapping (vector : Bool) (units : Nat) : State :=
  { w := { wave0 with status := .waiting .claim, vblocks := 8, tiles := 8 }, ctxs := base.ctxs
    g := { desc := { waves := 5 }, claims := [{ wave := 0, vector := vector, n := 4 }], vpool := [(0, units)], xpool := [(0, units)] }
    slots := [{ die := 0, core := 0, slot := 0, active := [handleOf {} 0], pending := [handleOf {} 4] }] }
def withPeer (s : State) : State := { s with g := { s.g with peers := [{ status := .ready, idx := 4, handle := handleOf {} 4 }] } }

/-- Wave 4, with a VADD next, and the slot with that wave pending behind eight active ones. -/
def held4 : Wave :=
  { wave0 with
    idx := 4, handle := handleOf {} 4
    clause := some { base := 0x10000, header := 0xFC003FC0, body := [0x1C0101C1], missing := none } }

def full8 : State :=
  let others : List Nat := [5, 6, 7, 8, 9, 10, 11]
  { swapping true 4 with
    g := { (swapping true 4).g with peers := held4 :: others.map (fun i => { status := .waiting (.strong 1), idx := i, handle := handleOf {} i }) }
    slots := [{ die := 0, core := 0, slot := 0, active := (0 :: others).map (handleOf {}), pending := [handleOf {} 4] }] }

theorem witness_WaveTransfersLoopsAndWaits_yield :
    let s := { full8 with w := { full8.w with status := .ready, sreg := [(60, 1)] } }
    let x := slotNow s s.g.die s.g.core (s.w.idx % 4)
    s.w.trap.on = false ∧ em s ≠ 0 ∧ x.pending.find? (readyWave s) = some (handleOf {} 4) ∧ s.w.handle ∈ x.active ∧
    s.w.handle ∉ x.pending ∧ handleOf {} 4 ∉ x.active ∧ fillDue s x = false := by decide +kernel

theorem witness_SlotSwapsAndClaims :
    (let s := withPeer (swapping true 4)
     let x := slotNow s 0 0 0
     x.active = [handleOf {} 0] ∧ x.pending = handleOf {} 4 :: [] ∧ handleOf {} 0 ≠ handleOf {} 4 ∧ rejoinHeld s (handleOf {} 4) = false ∧ x.active.length < 8) ∧
    (let s := full8
     let x := slotNow s 0 0 0
     x.active = handleOf {} 0 :: x.active.tail ∧ x.pending = [handleOf {} 4] ∧ fillDue s x = false ∧ x.active.find? (eligible s) = some (handleOf {} 0) ∧
     x.pending.find? (readyWave s) = some (handleOf {} 4) ∧
     (x.ready ++ x.pending).find? (fun h => x.pending.contains h && readyWave s h) = some (handleOf {} 4)) ∧
    (someNonHelper base = true ∧ base.w.trap.on = false ∧ base.g.claims = [] ∧ base.w.ejected = [] ∧
      (16 : BitVec 16).toNat ≤ heldUnits base.w true ∧ (16 : BitVec 16).toNat ≤ heldUnits base.w false) ∧
    (∀ b ∈ [true, false],
      let s := { base with w := { wave0 with vblocks := 12, tiles := 12 }, g := { base.g with vpool := [(0, 4)], xpool := [(0, 4)] } }
      someNonHelper s = true ∧ heldUnits s.w b + (4 : BitVec 16).toNat ≤ 16 ∧ (4 : BitVec 16).toNat ≤ poolGet s.g b (s.w.idx % 4)) ∧
    (∀ b ∈ [true, false],
      let s := swapping b 4
      Claims.ownFocus s ∧ s.g.peers = [] ∧ s.g.claims = [{ wave := 0, vector := b, n := 4 }] ∧ handleOf s.g 0 = s.w.handle ∧
      4 ≤ poolGet s.g b 0 ∧ s.w.status = .waiting .claim ∧ s.w.idx = 0 ∧ s.lane = none ∧ s.w.trap.on = false ∧
      (ctxGet s s.g.ctx).trapvec ≠ 0) ∧
    poolGet (swapping true 3).g true 0 < 4 := by
  refine ⟨?_, ?_, ?_, ?_, ?_, ?_⟩ <;> decide +kernel

/-- Lane 95 ejected beneath a join at the wave's pc; its next word is given. -/
def lane95 (pc : Pc) (word : Word) : EjLane :=
  { lane := 95, thread := 3, pc := pc, depth := 0, rpc := 0x10020, live := 3, mode := 0, win := [(23, 7)], pred := 0, sreg := [], flag := []
    clause := some { base := 0x10000, header := 0xFC003FC0, body := [word], missing := none }, status := .ready, started := true, readsSince := [] }
def ejecting (pc : Pc) (word : Word) : State :=
  withW { wave0 with pc := 0x10020, ejected := [lane95 pc word], stack := [{ joinEntry 0x10020 with eject := true }] }

theorem witness_EjectedLaneEvents :
    (let s := ejecting 0x10020 0
     s.w.ejected = [lane95 0x10020 0] ∧ s.w.trap.on = false ∧ s.w.stack = [{ joinEntry 0x10020 with eject := true }] ∧ s.w.batches = 0 ∧
     (lane95 0x10020 0).lane < 96 ∧ s.ops = [] ∧ s.w.status = .ready ∧ (lane95 0x10020 0).pc = (lane95 0x10020 0).rpc ∧ s.w.exitPop = false ∧
     areaReady s = true ∧ { lane95 0x10020 0 with stuck := true }.stuck = true) ∧
    (let e := lane95 0x10004 0x46008401
     e.started = true ∧ e.stuck = false ∧ e.pc ≠ e.rpc ∧ areaReady (ejecting 0x10004 0x46008401) = true ∧ laneNext (ejecting 0x10004 0x46008401) e = .recalls) := by decide +kernel

/-- A clause of one word, NOP, fetched, with the pc at the word. -/
def issuing (word : Word) : State :=
  { base with pkg := { power := true }, slots := [{ die := 0, core := 0, slot := 0, active := [0], pending := [], age := [0] }], w := { wave0 with clause := some { base := 0x10000, header := 0xFC003FC0, body := [word], missing := none } } }

theorem witness_StepRunsTheDecodedInstruction :
    (let s := issuing 0x1C0101C1
     s.inputs = [] ∧ s.pkg.power = true ∧ turnFree s = true ∧ s.w.status = .ready ∧ s.w.stackDue = none ∧ s.w.winTraps = [] ∧
     curRpc s.w ≠ some s.w.pc ∧ (s.w.pc - 0x10000).toNat / 4 = 0 + 1 ∧ 0 < headerLen 0xFC003FC0 ∧
     (decode 0x1C0101C1).toOption = some (.vadd 1 (.v 1) (.nat 1)) ∧ canIssue s (.vadd 1 (.v 1) (.nat 1)) = true ∧ openOps s = []) ∧
    (let s := { issuing 0x1C0102C1 with ops := [opOf 20 (.load false 4 false (.vec 9) []) 0] }
     canIssue s (.vadd 1 (.v 2) (.nat 1)) = true ∧ openOps s ≠ []) ∧
    (match exec (.vadd 1 (.v 1) (.nat 1)) (issuing 0x1C0101C1) with
      | .next t => t.w.status != .waiting .interlock && !stalls (noteIssue 0 t)
      | _ => false) = true ∧
    (∀ b ∈ [true, false], (match exec (.packetTake 0) { coh := { stalled := b } } with
      | .next t => stalls t == b
      | _ => false) = true) ∧ ({} : State).xlt.ended = [] ∧
    encode (.packetTake 0) = none ∧ encode .powerOn = none ∧ ({ inputs := [.event .powerOn], pkg := { power := true } } : State).inputs = .event .powerOn :: [] ∧
    ({ pkg := { power := false } } : State).inputs = [] := by decide +kernel

theorem witness_DecodeOfEncodeIsIdentity :
    (Instr.vadd 127 (.v 127) (.flt 4)).wf = true ∧ encode (.vadd 127 (.v 127) (.flt 4)) = some 0x1C7F7FDC := by decide +kernel

theorem witness_EncodeOfDecodeIsIdentity : decode 0x1C7F7FDC = .ok (.vadd 127 (.v 127) (.flt 4)) := ok_of (by decide +kernel)

/-- The step of a VADD keeps memory canonical; so does taking a host write. -/
theorem witness_StepsKeepMemoryCanonical :
    Memory.wf (issuing 0x1C0101C1).mem = true ∧
    (match step (issuing 0x1C0101C1) with
      | .next t => t.w.pc == 0x10008 && vget t 1 0 == 6
      | _ => false) = true ∧
    (let s := { up with inputs := [.event (.hostBar2Write 0x1000 [7])] }
     Memory.wf s.mem = true ∧ (match step s with
       | .next t => memByte t 0x1000 == 7
       | _ => false) = true) := by decide +kernel

theorem witness_MaskedInstructionsOnlyGoOn :
    em masked = 0 ∧ (encode (.ld 1 0 0 false 1 0)).isSome = true ∧ Claims.waveLevel (.ld 1 0 0 false 1 0) = false ∧
    someNonHelper masked = false ∧ someNonHelper (withW { wave0 with hmask := 1 }) = false := by decide +kernel
/-! ## Ill-formed terms -/

/-- Operands and fields that no word, or no agent, can name are refused. -/
theorem test_wf_refuses :
    (Src.idx 5).wf = false ∧ (Src.resv 0xE4).wf = false ∧ (XSrc.resv 19).wf = false ∧ (Instr.vadd 0 (.idx 7) (.v 0)).wf = false ∧
    (Instr.fadd 0 (.v 0) (.resv 0)).wf = false ∧ (Instr.mma 0 (.resv 1) (.tile 0) 0 0).wf = false ∧
    (Instr.sysw 0 (.resv 1)).wf = false ∧ (Instr.yieldB 1 false (.s 0) (.nat 0)).wf = false ∧ (Instr.dieRelease .memory 16).wf = false ∧
    (Instr.hostPortTrained 2 0 0).wf = false ∧ (Instr.guylineLinkReady 18).wf = false ∧ (Instr.channelTrainComplete 15 16).wf = false ∧
    (Instr.moduleUnreachable 64).wf = false ∧ (Instr.redCfgWrite 255 4 0).wf = false ∧ (Instr.reductionResult 256).wf = false ∧
    (Instr.ctxDestroy 32).wf = false ∧ (Instr.monitorPoll 31 (2 ^ 45)).wf = false ∧ (Instr.memMoveBlock 0 4096 0 0).wf = false ∧
    (Instr.groupPlace 0 0 32).wf = false ∧ (Instr.swapEligible 0 0 4).wf = false ∧ (Instr.laneRecall 96).wf = false ∧
    (Instr.l2Eviction 32 0).wf = false := by decide +kernel

/-- A value that an instruction's own description reserves is refused (14 R355, R365; 15 R384; 16 R420). -/
theorem test_fieldsAssigned_refuses :
    (Instr.vcmp 6 0 (.v 0) (.v 0)).fieldsAssigned = false ∧ (Instr.fcmp 8 0 (.v 0) (.v 0)).fieldsAssigned = false ∧
    (Instr.cvt 0 (.v 0) 7 0).fieldsAssigned = false ∧ (Instr.cvt 0 (.v 0) 4 1).fieldsAssigned = false ∧
    (Instr.vballot 0 (.v 0) 3).fieldsAssigned = false ∧ (Instr.ksend (.s 0) 0 0).fieldsAssigned = false ∧
    (Instr.call 62 0).fieldsAssigned = false ∧ (Instr.jrLink 60 (.s 0) (.nat 0)).fieldsAssigned = false ∧
    (Instr.sloop 60 0).fieldsAssigned = false ∧ (Instr.ldline 4 0 0 false 0 0).fieldsAssigned = false ∧
    (Instr.stline 104 0 0 false 0 0).fieldsAssigned = false ∧ (Instr.pref 3 0 0 0 0).fieldsAssigned = false ∧
    (Instr.xmovc 0 false true 0 1 0).fieldsAssigned = false ∧ (Instr.mma 0 (.tile 0) (.tile 0) 0 1).fieldsAssigned = false ∧
    (Instr.xcvt 0 0 false 2 5).fieldsAssigned = false ∧ (Instr.xcvt 0 0 false 0 7).fieldsAssigned = false := by decide +kernel

/-! ## Steps, with the results of the spec's worked examples -/

/-- 14, after R357: a 64-bit sum with VADDC, whose carry passes through g7. -/
theorem test_vaddc_carries :
    let s := withW { wave0 with vreg := [(0, [(0, 0xFFFFFFFF)]), (1, [(0, 1)]), (4, [(0, 1)]), (5, [(0, 2)])] }
    let t := after (.vaddc 2 (.v 0) (.v 4)) s
    let u := after (.vaddc 3 (.v 1) (.v 5)) t
    vget t 2 0 = 0 ∧ lane (pget t 7) 0 = true ∧ vget u 3 0 = 4 ∧ lane (pget u 7) 0 = false := by decide +kernel

/-- 14, after R363: CVTPK under M8x4 of 0.3 and 600, with INX set. -/
theorem test_cvtpk_m8x4 :
    let s := withW { wave0 with mode := 0xE0, vreg := [(2, [(0, 0x3E99999A)]), (3, [(0, 0x44160000)]), (8, [(0, 0xBEEF)])] }
    let t := after (.cvtpk 8 (.v 2) (.v 3)) s
    vget t 8 0 = 0xBEEF0723 := by decide +kernel

/-- 14, after R366: the first draw of lane 0 of wave 0 of group 0. -/
theorem test_vrand_first_draw :
    let s := withW { wave0 with sreg := [(60, 5)], rand := { x := 0, y := 0, z := 0x6C078965, w := 0x9E3779B9 } }
    let t := after (.vrand 1) s
    vget t 1 0 = 0x9E376A7F ∧ vget t 1 2 = 0x9E3779B9 ∧ vget t 1 1 = 0 := by decide +kernel

/-- 15, after R388: three lanes add 1, 2 and 4 to a word that holds 10, in one event. -/
theorem test_atom_add_lanes :
    let k : OpKind := .atomic .add 4 false 0 false 4
      [{ lane := 3, addr := 0x10040, x := 1, c := 0 }, { lane := 7, addr := 0x10040, x := 2, c := 0 }, { lane := 40, addr := 0x10040, x := 4, c := 0 }]
    let s := { flying k 0 with mem := { cells := [(0x10040, 10)] } }
    let t := after (.loadDataReturn 20) s
    memByte t 0x10040 = 17 ∧ vget t 4 3 = 10 ∧ vget t 4 7 = 11 ∧ vget t 4 40 = 13 := by decide +kernel

/-- 10, after R247: a one-lane 8-byte load at offset 28 binds its second sector after another wave's line store, and returns old bytes
with new ones. -/
theorem test_load_binds_by_sector :
    let k : OpKind := .load false 8 false (.vec 4) [{ lane := 0, va := 0x1001C, bytes := from' 0x1001C 8 }]
    let s := accessEvent 20 0x1001C { flying k 0 with mem := { cells := [(0x1001C, 1), (0x10020, 1)] } }
    let t := after (.loadDataReturn 20) { s with mem := { s.mem with cells := [(0x1001C, 2), (0x10020, 2)] } }
    vget t 4 0 = 1 ∧ vget t 5 0 = 2 := by decide +kernel

/-- 10, after R246: a store that spans two sectors is performed in one of them first. -/
theorem test_store_performs_by_sector :
    let s := accessEvent 20 0x10020 (flying (.store false [(0x1001F, 1), (0x10020, 2)]) 1)
    memByte s 0x1001F = 0 ∧ memByte s 0x10020 = 2 ∧ s.ops.map (·.kind) = [.store false [(0x1001F, 1)]] := by decide +kernel

/-- 11, after R271: decoded M8 bytes, and 11, after R279: 600 and 1,000 converted to M8. -/
theorem test_m8_values :
    (Sys2Proof.Num.convert 0 false false 0x4 0xE 0x44160000).1 = 0x07 ∧ (Sys2Proof.Num.convert 0 false false 0x4 0xE 0x447A0000).1 = 0x01 ∧
    (Sys2Proof.Num.convert 0 false false 0x4 0xE 0xBA83126F).1 = 0x00 ∧ (Sys2Proof.Num.convert 0 false false 0x4 0xE 0x80000000).1 = 0x00 := by decide +kernel

/-- 04 R116: TRAP 5 saves the address of the next instruction and the mask, enters trap mode and goes to the vector. -/
theorem test_trap_enters :
    let t := after (.trap 5) base
    t.w.pc = 0x30000 ∧ t.w.trap.on = true ∧ t.w.trap.cause = 0x0F ∧ t.w.trap.detail = 5 ∧ t.w.trap.pc = 0x10008 ∧ t.w.trap.em = 1 := by decide +kernel

/-- 07 R182's worked example: reads 17, 21 and 63 of the first buffer go to slices 0, 8 and 9, and a stride of 0x800080
sends every read to slice 2. -/
theorem test_slices : sliceOf (0x00880000 + 0x1000 * 17) = 0 ∧ sliceOf (0x00880000 + 0x1000 * 21) = 8 ∧
    sliceOf (0x00880000 + 0x1000 * 63) = 9 ∧ sliceOf (0x100000000 + 0x800080 * 63) = 2 := by decide +kernel

/-- 07 R188: at its quota a class gives up its own least recently used line, a class above its quota gives way before
others, and a pinned line is never chosen. Lines are written class, pinned, name, the latest used first. -/
theorem test_victims :
    let v (q : Nat → Nat) (c : Nat) (set : List (Nat × Bool × Nat)) := (victim q (·.1) (·.2.1) set c).map (·.2.2)
    v (fun _ => 2) 1 [(1, false, 0), (2, false, 1), (1, false, 2), (0, false, 3)] = some 2 ∧
    v (fun c => if c = 2 then 1 else 16) 0 [(2, false, 0), (1, false, 1), (2, false, 2), (1, false, 3)] = some 2 ∧
    v (fun _ => 16) 0 [(2, false, 0), (1, false, 1), (1, true, 2)] = some 1 := by decide +kernel

/-! ## Words from the encoding tables (13 Tables 13-5 to 13-9; 14 Table 14-8; 15 Tables 15-1, 15-3, 15-6; 16 Tables 16-1, 16-5) -/

theorem test_decode_vector_1 :
    (decode (0x38#9 ++ 5#7 ++ 0x11#8 ++ 0xD1#8)).toOption = some (.vadd 5 (.v 17) (.neg 1)) ∧
    (decode (0x39#9 ++ 5#7 ++ 0x11#8 ++ 0xD1#8)).toOption = some (.vsub 5 (.v 17) (.neg 1)) ∧
    (decode (0x3a#9 ++ 5#7 ++ 0x11#8 ++ 0xD1#8)).toOption = some (.vaddc 5 (.v 17) (.neg 1)) ∧
    (decode (0x3b#9 ++ 5#7 ++ 0x11#8 ++ 0xD1#8)).toOption = some (.vmul 5 (.v 17) (.neg 1)) ∧
    (decode (0x3c#9 ++ 5#7 ++ 0x11#8 ++ 0xD1#8)).toOption = some (.vmulh 5 (.v 17) (.neg 1)) ∧
    (decode (0x3d#9 ++ 5#7 ++ 0x11#8 ++ 0xD1#8)).toOption = some (.vmad 5 (.v 17) (.neg 1)) ∧
    (decode (0x3e#9 ++ 5#7 ++ 0x11#8 ++ 0xD1#8)).toOption = some (.vand 5 (.v 17) (.neg 1)) ∧
    (decode (0x3f#9 ++ 5#7 ++ 0x11#8 ++ 0xD1#8)).toOption = some (.vor 5 (.v 17) (.neg 1)) ∧
    (decode (0x40#9 ++ 5#7 ++ 0x11#8 ++ 0xD1#8)).toOption = some (.vxor 5 (.v 17) (.neg 1)) ∧
    (decode (0x42#9 ++ 5#7 ++ 0x11#8 ++ 0xD1#8)).toOption = some (.vshl 5 (.v 17) (.neg 1)) ∧
    (decode (0x43#9 ++ 5#7 ++ 0x11#8 ++ 0xD1#8)).toOption = some (.vshr 5 (.v 17) (.neg 1)) ∧
    (decode (0x44#9 ++ 5#7 ++ 0x11#8 ++ 0xD1#8)).toOption = some (.vsar 5 (.v 17) (.neg 1)) ∧
    (decode (0x45#9 ++ 5#7 ++ 0x11#8 ++ 0xD1#8)).toOption = some (.vshf 5 (.v 17) (.neg 1)) ∧
    (decode (0x46#9 ++ 5#7 ++ 0x11#8 ++ 0xD1#8)).toOption = some (.vmin 5 (.v 17) (.neg 1)) ∧
    (decode (0x47#9 ++ 5#7 ++ 0x11#8 ++ 0xD1#8)).toOption = some (.vmax 5 (.v 17) (.neg 1)) ∧
    (decode (0x4b#9 ++ 5#7 ++ 0x11#8 ++ 0xD1#8)).toOption = some (.vsel 5 (.v 17) (.neg 1)) ∧
    (decode (0x4e#9 ++ 5#7 ++ 0x11#8 ++ 0xD1#8)).toOption = some (.vbfe 5 (.v 17) (.neg 1)) ∧
    (decode (0x4f#9 ++ 5#7 ++ 0x11#8 ++ 0xD1#8)).toOption = some (.vbfi 5 (.v 17) (.neg 1)) ∧
    (decode (0x51#9 ++ 5#7 ++ 0x11#8 ++ 0xD1#8)).toOption = some (.vprmt 5 (.v 17) (.neg 1)) ∧
    (decode (0x52#9 ++ 5#7 ++ 0x11#8 ++ 0xD1#8)).toOption = some (.vclmulLo 5 (.v 17) (.neg 1)) := by decide +kernel

theorem test_decode_vector_2 :
    (decode (0x53#9 ++ 5#7 ++ 0x11#8 ++ 0xD1#8)).toOption = some (.vclmulHi 5 (.v 17) (.neg 1)) ∧
    (decode (0x41#9 ++ 5#7 ++ 0x11#8 ++ 0#8)).toOption = some (.vnot 5 (.v 17)) ∧
    (decode (0x48#9 ++ 5#7 ++ 0x11#8 ++ 0#8)).toOption = some (.vabs 5 (.v 17)) ∧
    (decode (0x49#9 ++ 5#7 ++ 0x11#8 ++ 0#8)).toOption = some (.vneg 5 (.v 17)) ∧
    (decode (0x4c#9 ++ 5#7 ++ 0x11#8 ++ 0#8)).toOption = some (.vclz 5 (.v 17)) ∧
    (decode (0x4d#9 ++ 5#7 ++ 0x11#8 ++ 0#8)).toOption = some (.vpopc 5 (.v 17)) ∧
    (decode (0x50#9 ++ 5#7 ++ 0x11#8 ++ 0#8)).toOption = some (.vbrev 5 (.v 17)) ∧
    (decode (0x4a#9 ++ 4#4 ++ 3#3 ++ 0x11#8 ++ 0xE0#8)).toOption = some (.vcmp 4 3 (.v 17) (.idx 0)) := by decide +kernel

theorem test_decode_float :
    (decode (0x58#9 ++ 6#7 ++ 0x11#8 ++ 0xDA#8)).toOption = some (.fadd 6 (.v 17) (.flt 2)) ∧
    (decode (0x59#9 ++ 6#7 ++ 0x11#8 ++ 0xDA#8)).toOption = some (.fsub 6 (.v 17) (.flt 2)) ∧
    (decode (0x5a#9 ++ 6#7 ++ 0x11#8 ++ 0xDA#8)).toOption = some (.fmul 6 (.v 17) (.flt 2)) ∧
    (decode (0x5b#9 ++ 6#7 ++ 0x11#8 ++ 0xDA#8)).toOption = some (.ffma 6 (.v 17) (.flt 2)) ∧
    (decode (0x5c#9 ++ 6#7 ++ 0x11#8 ++ 0xDA#8)).toOption = some (.fmin 6 (.v 17) (.flt 2)) ∧
    (decode (0x5d#9 ++ 6#7 ++ 0x11#8 ++ 0xDA#8)).toOption = some (.fmax 6 (.v 17) (.flt 2)) ∧
    (decode (0x68#9 ++ 6#7 ++ 0x11#8 ++ 0xDA#8)).toOption = some (.hadd2 6 (.v 17) (.flt 2)) ∧
    (decode (0x69#9 ++ 6#7 ++ 0x11#8 ++ 0xDA#8)).toOption = some (.hmul2 6 (.v 17) (.flt 2)) ∧
    (decode (0x6a#9 ++ 6#7 ++ 0x11#8 ++ 0xDA#8)).toOption = some (.hfma2 6 (.v 17) (.flt 2)) ∧
    (decode (0x6c#9 ++ 6#7 ++ 0x11#8 ++ 0xDA#8)).toOption = some (.cvtpk 6 (.v 17) (.flt 2)) ∧
    (decode (0x5f#9 ++ 6#7 ++ 0x11#8 ++ 0#8)).toOption = some (.fclass 6 (.v 17)) ∧
    (decode (0x60#9 ++ 6#7 ++ 0x11#8 ++ 0#8)).toOption = some (.frnd 6 (.v 17)) ∧
    (decode (0x61#9 ++ 6#7 ++ 0x11#8 ++ 0#8)).toOption = some (.frcp 6 (.v 17)) ∧
    (decode (0x62#9 ++ 6#7 ++ 0x11#8 ++ 0#8)).toOption = some (.frsq 6 (.v 17)) ∧
    (decode (0x63#9 ++ 6#7 ++ 0x11#8 ++ 0#8)).toOption = some (.fsqrt 6 (.v 17)) ∧
    (decode (0x64#9 ++ 6#7 ++ 0x11#8 ++ 0#8)).toOption = some (.fexp2 6 (.v 17)) ∧
    (decode (0x65#9 ++ 6#7 ++ 0x11#8 ++ 0#8)).toOption = some (.flog2 6 (.v 17)) ∧
    (decode (0x66#9 ++ 6#7 ++ 0x11#8 ++ 0#8)).toOption = some (.ftanh 6 (.v 17)) ∧
    (decode (0x5e#9 ++ 7#4 ++ 1#3 ++ 0x11#8 ++ 0xD1#8)).toOption = some (.fcmp 7 1 (.v 17) (.neg 1)) ∧
    (decode (0x6b#9 ++ 6#7 ++ 0x11#8 ++ 0#2 ++ 1#2 ++ 5#4)).toOption = some (.cvt 6 (.v 17) 5 1) := by decide +kernel

theorem test_decode_scalar_1 :
    (decode (0x1b#9 ++ 10#6 ++ 1#1 ++ 0x82#8 ++ 0xC7#8)).toOption = some (.sadd 10 true (.s 2) (.nat 7)) ∧
    (decode (0x1c#9 ++ 10#6 ++ 1#1 ++ 0x82#8 ++ 0xC7#8)).toOption = some (.ssub 10 true (.s 2) (.nat 7)) ∧
    (decode (0x1d#9 ++ 10#6 ++ 1#1 ++ 0x82#8 ++ 0xC7#8)).toOption = some (.smul 10 true (.s 2) (.nat 7)) ∧
    (decode (0x1e#9 ++ 10#6 ++ 1#1 ++ 0x82#8 ++ 0xC7#8)).toOption = some (.smulh 10 true (.s 2) (.nat 7)) ∧
    (decode (0x1f#9 ++ 10#6 ++ 1#1 ++ 0x82#8 ++ 0xC7#8)).toOption = some (.smad 10 true (.s 2) (.nat 7)) ∧
    (decode (0x20#9 ++ 10#6 ++ 1#1 ++ 0x82#8 ++ 0xC7#8)).toOption = some (.sdiv 10 true (.s 2) (.nat 7)) ∧
    (decode (0x21#9 ++ 10#6 ++ 1#1 ++ 0x82#8 ++ 0xC7#8)).toOption = some (.srem 10 true (.s 2) (.nat 7)) ∧
    (decode (0x22#9 ++ 10#6 ++ 1#1 ++ 0x82#8 ++ 0xC7#8)).toOption = some (.sand 10 true (.s 2) (.nat 7)) ∧
    (decode (0x23#9 ++ 10#6 ++ 1#1 ++ 0x82#8 ++ 0xC7#8)).toOption = some (.sor 10 true (.s 2) (.nat 7)) ∧
    (decode (0x24#9 ++ 10#6 ++ 1#1 ++ 0x82#8 ++ 0xC7#8)).toOption = some (.sxor 10 true (.s 2) (.nat 7)) ∧
    (decode (0x26#9 ++ 10#6 ++ 1#1 ++ 0x82#8 ++ 0xC7#8)).toOption = some (.sshl 10 true (.s 2) (.nat 7)) ∧
    (decode (0x27#9 ++ 10#6 ++ 1#1 ++ 0x82#8 ++ 0xC7#8)).toOption = some (.sshr 10 true (.s 2) (.nat 7)) ∧
    (decode (0x28#9 ++ 10#6 ++ 1#1 ++ 0x82#8 ++ 0xC7#8)).toOption = some (.ssar 10 true (.s 2) (.nat 7)) ∧
    (decode (0x29#9 ++ 10#6 ++ 1#1 ++ 0x82#8 ++ 0xC7#8)).toOption = some (.smin 10 true (.s 2) (.nat 7)) ∧
    (decode (0x2a#9 ++ 10#6 ++ 1#1 ++ 0x82#8 ++ 0xC7#8)).toOption = some (.smax 10 true (.s 2) (.nat 7)) ∧
    (decode (0x2d#9 ++ 10#6 ++ 1#1 ++ 0x82#8 ++ 0xC7#8)).toOption = some (.sbfe 10 true (.s 2) (.nat 7)) ∧
    (decode (0x2e#9 ++ 10#6 ++ 1#1 ++ 0x82#8 ++ 0xC7#8)).toOption = some (.sbfi 10 true (.s 2) (.nat 7)) ∧
    (decode (0x2f#9 ++ 10#6 ++ 1#1 ++ 0x82#8 ++ 0xC7#8)).toOption = some (.ssel 10 true (.s 2) (.nat 7)) ∧
    (decode (0x30#9 ++ 10#6 ++ 1#1 ++ 0x82#8 ++ 0xC7#8)).toOption = some (.scmpEq 10 true (.s 2) (.nat 7)) ∧
    (decode (0x31#9 ++ 10#6 ++ 1#1 ++ 0x82#8 ++ 0xC7#8)).toOption = some (.scmpNe 10 true (.s 2) (.nat 7)) := by decide +kernel

theorem test_decode_scalar_2 :
    (decode (0x32#9 ++ 10#6 ++ 1#1 ++ 0x82#8 ++ 0xC7#8)).toOption = some (.scmpLt 10 true (.s 2) (.nat 7)) ∧
    (decode (0x33#9 ++ 10#6 ++ 1#1 ++ 0x82#8 ++ 0xC7#8)).toOption = some (.scmpLe 10 true (.s 2) (.nat 7)) ∧
    (decode (0x34#9 ++ 10#6 ++ 1#1 ++ 0x82#8 ++ 0xC7#8)).toOption = some (.scmpLtu 10 true (.s 2) (.nat 7)) ∧
    (decode (0x35#9 ++ 10#6 ++ 1#1 ++ 0x82#8 ++ 0xC7#8)).toOption = some (.scmpLeu 10 true (.s 2) (.nat 7)) ∧
    (decode (0x18#9 ++ 10#6 ++ 1#1 ++ 0x82#8 ++ 0#8)).toOption = some (.smov 10 true (.s 2)) ∧
    (decode (0x25#9 ++ 10#6 ++ 1#1 ++ 0x82#8 ++ 0#8)).toOption = some (.snot 10 true (.s 2)) ∧
    (decode (0x2b#9 ++ 10#6 ++ 1#1 ++ 0x82#8 ++ 0#8)).toOption = some (.sclz 10 true (.s 2)) ∧
    (decode (0x2c#9 ++ 10#6 ++ 1#1 ++ 0x82#8 ++ 0#8)).toOption = some (.spopc 10 true (.s 2)) ∧
    (decode (0x19#9 ++ 0#1 ++ 9#6 ++ 0x8001#16)).toOption = some (.smovi 9 0x8001) ∧
    (decode (0x1a#9 ++ 0#1 ++ 9#6 ++ 0x8001#16)).toOption = some (.smovhi 9 0x8001) := by decide +kernel

theorem test_decode_crosslane :
    (decode (0x70#9 ++ 5#7 ++ 0x11#8 ++ 0x1B#8)).toOption = some (.qswz 5 (.v 17) 0x1B) ∧
    (decode (0x71#9 ++ 5#7 ++ 0x11#8 ++ 0#6 ++ 3#2)).toOption = some (.qbcast 5 (.v 17) 3) ∧
    (decode (0x72#9 ++ 5#7 ++ 0x11#8 ++ 0#8)).toOption = some (.qdx 5 (.v 17)) ∧
    (decode (0x73#9 ++ 5#7 ++ 0x11#8 ++ 0#8)).toOption = some (.qdy 5 (.v 17)) ∧
    (decode (0x74#9 ++ 5#7 ++ 0x11#8 ++ 0xD1#8)).toOption = some (.vshfl 5 (.v 17) (.neg 1)) ∧
    (decode (0x75#9 ++ 9#6 ++ 0#1 ++ 0x11#8 ++ 2#8)).toOption = some (.vballot 9 (.v 17) 2) ∧
    (decode (0x76#9 ++ 9#6 ++ 0#1 ++ 0x11#8 ++ 0xC7#8)).toOption = some (.vreadl 9 (.v 17) (.nat 7)) ∧
    (decode (0x77#9 ++ 5#7 ++ 0x82#8 ++ 0xC7#8)).toOption = some (.vwritel 5 (.s 2) (.nat 7)) ∧
    (decode (0x78#9 ++ 5#7 ++ 0#8 ++ 0#8)).toOption = some (.vrand 5) ∧
    (decode (0x79#9 ++ 0#4 ++ 3#3 ++ 0#4 ++ 9#4 ++ 0#4 ++ 2#4)).toOption = some (.pand 3 9 2) ∧
    (decode (0x7a#9 ++ 0#4 ++ 3#3 ++ 0#4 ++ 9#4 ++ 0#4 ++ 2#4)).toOption = some (.por 3 9 2) ∧
    (decode (0x7b#9 ++ 0#4 ++ 3#3 ++ 0#4 ++ 9#4 ++ 0#4 ++ 2#4)).toOption = some (.pxor 3 9 2) ∧
    (decode (0x7c#9 ++ 0#4 ++ 3#3 ++ 0#4 ++ 9#4 ++ 0#8)).toOption = some (.pnot 3 9) ∧
    (decode (0x7d#9 ++ 0#4 ++ 3#3 ++ 0x11#8 ++ 0#8)).toOption = some (.pset 3 (.v 17)) := by decide +kernel

theorem test_decode_control :
    (decode (0x1#9 ++ 0#7 ++ 0#16)).toOption = some (.nop) ∧
    (decode (0x2#9 ++ 0#7 ++ 0#16)).toOption = some (.exit) ∧
    (decode (0x5#9 ++ 0#7 ++ 0#16)).toOption = some (.yield) ∧
    (decode (0x12#9 ++ 0#7 ++ 0#16)).toOption = some (.tret) ∧
    (decode (0x3#9 ++ 0#7 ++ 0#4 ++ 0x805#12)).toOption = some (.waitf 0x805) ∧
    (decode (0x4#9 ++ 0#6 ++ 0#1 ++ 0x82#8 ++ 0xD0#8)).toOption = some (.mode (.s 2) (.neg 0)) ∧
    (decode (0x8#9 ++ 0#3 ++ 1#1 ++ 2#3 ++ 0xFFFE#16)).toOption = some (.br true 2 0xFFFE) ∧
    (decode (0x9#9 ++ 0#1 ++ 9#6 ++ 3#16)).toOption = some (.brsZ 9 3) ∧
    (decode (0xa#9 ++ 0#1 ++ 9#6 ++ 3#16)).toOption = some (.brsNz 9 3) ∧
    (decode (0x11#9 ++ 0#1 ++ 9#6 ++ 3#16)).toOption = some (.sloop 9 3) ∧
    (decode (0xb#9 ++ 0#7 ++ 3#16)).toOption = some (.jmp 3) ∧
    (decode (0xc#9 ++ 0#1 ++ 8#6 ++ 3#16)).toOption = some (.call 8 3) ∧
    (decode (0xd#9 ++ 0#6 ++ 0#1 ++ 0x82#8 ++ 0#8)).toOption = some (.ret (.s 2)) ∧
    (decode (0xe#9 ++ 0#6 ++ 0#1 ++ 0x82#8 ++ 0xC7#8)).toOption = some (.jr (.s 2) (.nat 7)) ∧
    (decode (0xe#9 ++ 8#6 ++ 1#1 ++ 0x82#8 ++ 0xC7#8)).toOption = some (.jrLink 8 (.s 2) (.nat 7)) ∧
    (decode (0xf#9 ++ 8#6 ++ 0#1 ++ 0x11#8 ++ 0#8)).toOption = some (.jx 8 (.v 17)) ∧
    (decode (0x10#9 ++ 5#4 ++ 1#1 ++ 0x20003#18)).toOption = some (.joinAt 5 true 0x20003) := by decide +kernel

theorem test_decode_system :
    (decode (0x6#9 ++ 0#7 ++ 5#16)).toOption = some (.trap 5) ∧
    (decode (0x7#9 ++ 0#7 ++ 6#16)).toOption = some (.bkpt 6) ∧
    (decode (0x13#9 ++ 8#6 ++ 1#1 ++ 0#8 ++ 0#8)).toOption = some (.stime 8 true) ∧
    (decode (0x14#9 ++ 40#6 ++ 0#1 ++ 0x10#8 ++ 0#8)).toOption = some (.sysr 40 0x10) ∧
    (decode (0x15#9 ++ 0#6 ++ 0#1 ++ 0x16#8 ++ 0xAA#8)).toOption = some (.sysw 0x16 (.s 42)) := by decide +kernel

theorem test_decode_keys :
    (decode (0x80#9 ++ 0#7 ++ 0#12 ++ 7#4)).toOption = some (.kclr 7) ∧
    (decode (0x81#9 ++ 0#7 ++ 0#4 ++ 3#4 ++ 1#4 ++ 2#4)).toOption = some (.kjoin 3 1 2) ∧
    (decode (0x82#9 ++ 0#7 ++ 0#4 ++ 3#4 ++ 0#4 ++ 2#4)).toOption = some (.kfork 3 2) ∧
    (decode (0x83#9 ++ 0#7 ++ 0#12 ++ 7#4)).toOption = some (.kwait 7) ∧
    (decode (0x84#9 ++ 0#7 ++ 0#16)).toOption = some (.fence) ∧
    (decode (0x85#9 ++ 0#6 ++ 1#1 ++ 0x82#8 ++ 4#4 ++ 3#4)).toOption = some (.ksend (.s 2) 3 4) ∧
    (decode (0x86#9 ++ 0#7 ++ 0#12 ++ 7#4)).toOption = some (.karr 7) ∧
    (decode (0x87#9 ++ 9#6 ++ 0#1 ++ 0#8 ++ 0#4 ++ 7#4)).toOption = some (.kstat 9 7) ∧
    (decode (0x88#9 ++ 0#7 ++ 0#8 ++ 7#4 ++ 0#2 ++ 2#2)).toOption = some (.gbar 2 7) ∧
    (decode (0x89#9 ++ 0#7 ++ 0#8 ++ 7#4 ++ 0#4)).toOption = some (.gbarPhase 7) ∧
    (decode (0x8a#9 ++ 0#6 ++ 1#1 ++ 0x84#8 ++ 0x86#8)).toOption = some (.binit (.s 4) (.s 6)) ∧
    (decode (0x8b#9 ++ 0#6 ++ 0#1 ++ 0x84#8 ++ 0xC7#8)).toOption = some (.bexpect (.s 4) (.nat 7)) ∧
    (decode (0x8c#9 ++ 0#6 ++ 0#1 ++ 0x84#8 ++ 0#4 ++ 1#4)).toOption = some (.barrive (.s 4) 1) ∧
    (decode (0x8d#9 ++ 0#6 ++ 0#1 ++ 0x84#8 ++ 0xC7#8)).toOption = some (.bwait (.s 4) (.nat 7)) ∧
    (decode (0x8e#9 ++ 9#6 ++ 0#1 ++ 0x84#8 ++ 0xC7#8)).toOption = some (.btest 9 (.s 4) (.nat 7)) ∧
    (decode (0x8f#9 ++ 8#6 ++ 1#1 ++ 0x84#8 ++ 0xC7#8)).toOption = some (.yieldB 8 true (.s 4) (.nat 7)) ∧
    (decode (0x90#9 ++ 0#7 ++ 3#16)).toOption = some (.vgive 3) ∧
    (decode (0x91#9 ++ 0#7 ++ 3#16)).toOption = some (.vclaim 3) ∧
    (decode (0x92#9 ++ 0#7 ++ 3#16)).toOption = some (.xgive 3) ∧
    (decode (0x93#9 ++ 0#7 ++ 3#16)).toOption = some (.xclaim 3) := by decide +kernel

theorem test_decode_memory_1 :
    (decode (0x20#6 ++ 8#7 ++ 3#7 ++ 2#2 ++ 1#1 ++ 0#1 ++ 4#4 ++ 5#4)).toOption = some (.ld 8 3 2 true 4 5) ∧
    (decode (0x21#6 ++ 8#7 ++ 3#7 ++ 2#2 ++ 1#1 ++ 0#1 ++ 4#4 ++ 5#4)).toOption = some (.st 8 3 2 true 4 5) ∧
    (decode (0x22#6 ++ 8#7 ++ 3#7 ++ 2#2 ++ 1#1 ++ 0#1 ++ 4#4 ++ 5#4)).toOption = some (.ldl 8 3 2 true 4 5) ∧
    (decode (0x23#6 ++ 8#7 ++ 3#7 ++ 2#2 ++ 1#1 ++ 0#1 ++ 4#4 ++ 5#4)).toOption = some (.stl 8 3 2 true 4 5) ∧
    (decode (0x24#6 ++ 8#7 ++ 3#7 ++ 2#2 ++ 1#1 ++ 0#1 ++ 4#4 ++ 5#4)).toOption = some (.ldline 8 3 2 true 4 5) ∧
    (decode (0x25#6 ++ 8#7 ++ 3#7 ++ 2#2 ++ 1#1 ++ 0#1 ++ 4#4 ++ 5#4)).toOption = some (.stline 8 3 2 true 4 5) ∧
    (decode (0x26#6 ++ 2#7 ++ 3#7 ++ 2#2 ++ 0#1 ++ 0#1 ++ 4#4 ++ 5#4)).toOption = some (.pref 2 3 2 4 5) ∧
    (decode (0x27#6 ++ 0#1 ++ 8#6 ++ 0#1 ++ 3#6 ++ 2#2 ++ 1#1 ++ 0#1 ++ 4#4 ++ 5#4)).toOption = some (.sld 8 3 2 true 4 5) ∧
    (decode (0x28#6 ++ 0#1 ++ 8#6 ++ 0#1 ++ 3#6 ++ 2#2 ++ 1#1 ++ 0#1 ++ 4#4 ++ 5#4)).toOption = some (.sst 8 3 2 true 4 5) ∧
    (decode (0x29#6 ++ 0#7 ++ 3#7 ++ 2#2 ++ 1#1 ++ 0#1 ++ 0#4 ++ 5#4)).toOption = some (.launch 3 2 5) ∧
    (decode (0x2a#6 ++ 0#7 ++ 0#7 ++ 2#2 ++ 0#1 ++ 0#1 ++ 0#4 ++ 5#4)).toOption = some (.enq 2 5) ∧
    (decode (0x2b#6 ++ 8#7 ++ 3#7 ++ 2#2 ++ 1#1 ++ 0#1 ++ 4#4 ++ 5#4)).toOption = some (.atomAdd 8 3 2 true 4 5) ∧
    (decode (0x2c#6 ++ 8#7 ++ 3#7 ++ 2#2 ++ 1#1 ++ 0#1 ++ 4#4 ++ 5#4)).toOption = some (.atomMin 8 3 2 true 4 5) ∧
    (decode (0x2d#6 ++ 8#7 ++ 3#7 ++ 2#2 ++ 1#1 ++ 0#1 ++ 4#4 ++ 5#4)).toOption = some (.atomMax 8 3 2 true 4 5) ∧
    (decode (0x2e#6 ++ 8#7 ++ 3#7 ++ 2#2 ++ 1#1 ++ 0#1 ++ 4#4 ++ 5#4)).toOption = some (.atomAnd 8 3 2 true 4 5) ∧
    (decode (0x2f#6 ++ 8#7 ++ 3#7 ++ 2#2 ++ 1#1 ++ 0#1 ++ 4#4 ++ 5#4)).toOption = some (.atomOr 8 3 2 true 4 5) ∧
    (decode (0x30#6 ++ 8#7 ++ 3#7 ++ 2#2 ++ 1#1 ++ 0#1 ++ 4#4 ++ 5#4)).toOption = some (.atomXor 8 3 2 true 4 5) ∧
    (decode (0x31#6 ++ 8#7 ++ 3#7 ++ 2#2 ++ 1#1 ++ 0#1 ++ 4#4 ++ 5#4)).toOption = some (.atomXchg 8 3 2 true 4 5) ∧
    (decode (0x32#6 ++ 8#7 ++ 3#7 ++ 2#2 ++ 1#1 ++ 0#1 ++ 4#4 ++ 5#4)).toOption = some (.atomCas 8 3 2 true 4 5) ∧
    (decode (0x33#6 ++ 8#7 ++ 3#7 ++ 2#2 ++ 1#1 ++ 0#1 ++ 4#4 ++ 5#4)).toOption = some (.atomInc 8 3 2 true 4 5) := by decide +kernel

theorem test_decode_memory_2 :
    (decode (0x34#6 ++ 8#7 ++ 3#7 ++ 2#2 ++ 1#1 ++ 0#1 ++ 4#4 ++ 5#4)).toOption = some (.atomDec 8 3 2 true 4 5) ∧
    (decode (0x35#6 ++ 8#7 ++ 3#7 ++ 2#2 ++ 1#1 ++ 0#1 ++ 4#4 ++ 5#4)).toOption = some (.atomFadd 8 3 2 true 4 5) := by decide +kernel

theorem test_decode_matrix :
    (decode (0x36#6 ++ 0#3 ++ 2#4 ++ 5#5 ++ 17#5 ++ 4#5 ++ 6#4)).toOption = some (.mma 2 (.tile 5) (.stream 1) 4 6) ∧
    (decode (0x36#6 ++ 1#3 ++ 2#4 ++ 5#5 ++ 17#5 ++ 4#5 ++ 6#4)).toOption = some (.mmabAnd 2 (.tile 5) (.stream 1) 4 6) ∧
    (decode (0x36#6 ++ 2#3 ++ 2#4 ++ 5#5 ++ 17#5 ++ 4#5 ++ 6#4)).toOption = some (.mmabXor 2 (.tile 5) (.stream 1) 4 6) ∧
    (decode (0x36#6 ++ 3#3 ++ 2#4 ++ 0#5 ++ 0#5 ++ 4#5 ++ 0#4)).toOption = some (.xscale 2 4) ∧
    (decode (0x36#6 ++ 4#3 ++ 5#4 ++ 0#1 ++ 2#4 ++ 0#1 ++ 1#1 ++ 1#3 ++ 0#1 ++ 2#4 ++ 0#4)).toOption = some (.xcvt 5 2 true 1 2) ∧
    (decode (0x36#6 ++ 5#3 ++ 2#4 ++ 0#5 ++ 0#5 ++ 0#5 ++ 0#4)).toOption = some (.xzero 2) ∧
    (decode (0x36#6 ++ 6#3 ++ 3#4 ++ 0#3 ++ 1#1 ++ 1#1 ++ 0#5 ++ 5#5 ++ 2#4)).toOption = some (.tld 3 true true 5 2) ∧
    (decode (0x36#6 ++ 7#3 ++ 3#4 ++ 0#3 ++ 1#1 ++ 1#1 ++ 0#5 ++ 5#5 ++ 2#4)).toOption = some (.tst 3 true true 5 2) ∧
    (decode (0x37#6 ++ 0#3 ++ 0#4 ++ 0#5 ++ 0#5 ++ 6#5 ++ 4#4)).toOption = some (.sscan 6 4) ∧
    (decode (0x37#6 ++ 1#3 ++ 0#4 ++ 0#5 ++ 0#5 ++ 6#5 ++ 4#4)).toOption = some (.ssld 6 4) ∧
    (decode (0x37#6 ++ 2#3 ++ 0#4 ++ 0#5 ++ 0#5 ++ 6#5 ++ 4#4)).toOption = some (.ssst 6 4) ∧
    (decode (0x94#9 ++ 4#7 ++ 1#1 ++ 0#1 ++ 2#4 ++ 1#2 ++ 0#2 ++ 7#6)).toOption = some (.xmovr 4 true 2 1 7) ∧
    (decode (0x95#9 ++ 4#7 ++ 1#1 ++ 1#1 ++ 2#4 ++ 0#2 ++ 0#2 ++ 0#6)).toOption = some (.xmovc 4 true true 2 0 0) := by decide +kernel

end Sys2Proof.Tests
end

section
/-!
Loads in flight: what the completion of an operation leaves alone, what a load's destination takes, and the event that binds
a load (10 R241, R244, R247; 13 R316; 15 R378, R379; 01 R33; 02 R59).
-/

namespace Sys2Proof.Machine

open Sys2Proof

/-! ## Completion of an operation (09 R223; 13 R316) -/

/-- t is s but for the operations in flight and what the waves hold of them: completion flags, tags, and the flags of ejected lanes. -/
def FlightOnly (s t : State) : Prop :=
  t = { s with
    w := { s.w with flag := t.w.flag, ejected := t.w.ejected, keys := { s.w.keys with tags := t.w.keys.tags } }
    g := { s.g with peers := t.g.peers }
    groups := t.groups, records := t.records, ops := t.ops }

theorem FlightOnly.trans {s t u : State} (a : FlightOnly s t) (b : FlightOnly t u) : FlightOnly s u := by
  unfold FlightOnly at a b ⊢
  rw [b, a]

/-- A change of the flags, the tags and the ejected lanes' flags of any waves. -/
theorem flightOnly_mapWaves (f : Wave → Wave)
    (hf : ∀ w, f w = { w with flag := (f w).flag, ejected := (f w).ejected, keys := { w.keys with tags := (f w).keys.tags } })
    (s : State) : FlightOnly s (mapWaves f s) := by
  unfold FlightOnly mapWaves
  by_cases h : focused s = true
  · simp only [h, if_true]
    rw [← hf]
  · simp [h]

theorem flightOnly_releaseFlag (o : Op) (s : State) : FlightOnly s (releaseFlag o s) := by
  unfold releaseFlag
  cases o.flag with
  | none => rfl
  | some f =>
    refine flightOnly_mapWaves _ (fun w => ?_) s
    by_cases h : w.handle = o.owner
    · cases o.lane <;> simp [h, lowerCount]
    · simp [h]

theorem drainTag_frame (busy : Bool) (t : Tag) (w : Wave) :
    drainTag busy t w = { w with keys := { w.keys with tags := (drainTag busy t w).keys.tags } } := by
  have frame (c : Bool) (ts : Tab (List Tag)) :
      (if c then w else { w with keys := { w.keys with tags := ts } }) =
        { w with keys := { w.keys with
            tags := (if c then w else { w with keys := { w.keys with tags := ts } }).keys.tags } } := by
    cases c <;> rfl
  exact frame _ _

theorem flightOnly_removeOp (o : Op) (s : State) : FlightOnly s (removeOp o s) := by
  unfold removeOp
  cases o.tag with
  | none => rfl
  | some t =>
    refine FlightOnly.trans (t := { s with ops := s.ops.filter (fun p => p.id != o.id) }) rfl
      (flightOnly_mapWaves _ (fun w => ?_) _)
    rw [drainTag_frame]

/-- The completion of an operation changes what is in flight alone. -/
theorem flightOnly_completeOp (o : Op) (s : State) : FlightOnly s (completeOp o s) :=
  (flightOnly_releaseFlag o s).trans (flightOnly_removeOp o _)

@[simp] theorem mapWaves_ops (f : Wave → Wave) (s : State) : (mapWaves f s).ops = s.ops := rfl

@[simp] theorem releaseFlag_ops (o : Op) (s : State) : (releaseFlag o s).ops = s.ops := by
  unfold releaseFlag
  cases o.flag <;> rfl

/-- A complete operation is in flight no more, and every other one is. -/
@[simp] theorem completeOp_ops (o : Op) (s : State) : (completeOp o s).ops = s.ops.filter (fun p => p.id != o.id) := by
  unfold completeOp removeOp
  cases o.tag <;> simp

@[simp] theorem completeOp_mem (o : Op) (s : State) : (completeOp o s).mem = s.mem := by rw [flightOnly_completeOp o s]
@[simp] theorem completeOp_nextOp (o : Op) (s : State) : (completeOp o s).nextOp = s.nextOp := by rw [flightOnly_completeOp o s]
@[simp] theorem completeOp_w_pc (o : Op) (s : State) : (completeOp o s).w.pc = s.w.pc := by rw [flightOnly_completeOp o s]
@[simp] theorem completeOp_w_status (o : Op) (s : State) : (completeOp o s).w.status = s.w.status := by rw [flightOnly_completeOp o s]
@[simp] theorem completeOp_w_stack (o : Op) (s : State) : (completeOp o s).w.stack = s.w.stack := by rw [flightOnly_completeOp o s]
@[simp] theorem completeOp_w_trap (o : Op) (s : State) : (completeOp o s).w.trap = s.w.trap := by rw [flightOnly_completeOp o s]
@[simp] theorem completeOp_w_mode (o : Op) (s : State) : (completeOp o s).w.mode = s.w.mode := by rw [flightOnly_completeOp o s]
@[simp] theorem completeOp_w_sreg (o : Op) (s : State) : (completeOp o s).w.sreg = s.w.sreg := by rw [flightOnly_completeOp o s]
@[simp] theorem completeOp_w_vreg (o : Op) (s : State) : (completeOp o s).w.vreg = s.w.vreg := by rw [flightOnly_completeOp o s]
@[simp] theorem completeOp_w_pred (o : Op) (s : State) : (completeOp o s).w.pred = s.w.pred := by rw [flightOnly_completeOp o s]
@[simp] theorem completeOp_w_tile (o : Op) (s : State) : (completeOp o s).w.tile = s.w.tile := by rw [flightOnly_completeOp o s]
@[simp] theorem completeOp_w_side (o : Op) (s : State) : (completeOp o s).w.side = s.w.side := by rw [flightOnly_completeOp o s]
@[simp] theorem completeOp_w_astat (o : Op) (s : State) : (completeOp o s).w.astat = s.w.astat := by rw [flightOnly_completeOp o s]

@[simp] theorem memByte_completeOp (o : Op) (s : State) (a : Nat) : memByte (completeOp o s) a = memByte s a := by
  simp [memByte]

@[simp] theorem locByte_completeOp (o : Op) (s : State) (a : Nat) : locByte (completeOp o s).g a = locByte s.g a := by
  rw [flightOnly_completeOp o s]; rfl

@[simp] theorem sget_completeOp (o : Op) (s : State) (n : Nat) : sget (completeOp o s) n = sget s n := by
  simp [sget]

@[simp] theorem vrow_completeOp (o : Op) (s : State) (n : Nat) : vrow (completeOp o s) n = vrow s n := by
  simp [vrow]

@[simp] theorem vget_completeOp (o : Op) (s : State) (n l : Nat) : vget (completeOp o s) n l = vget s n l := by
  simp [vget]

/-- With no fault met in flight there is nothing to settle. -/
theorem settleAll_of_noFault (s : State) (h : ∀ p ∈ s.ops, p.fault = none) : settleAll s = s := by
  have hnone : s.ops.filter (fun o => o.fault.isSome) = [] :=
    List.filter_eq_nil_iff.2 (fun p hp => by simp [h p hp])
  unfold settleAll
  rw [hnone]; rfl

/-! ## What a delivery of data leaves alone -/

/-- t is s but for the wave's scalar and vector registers and what the caches hold. -/
def DataOnly (s t : State) : Prop :=
  t = { s with
    w := { s.w with sreg := t.w.sreg, vreg := t.w.vreg, trap := { s.w.trap with tv := t.w.trap.tv } }
    coh := t.coh, mem := { s.mem with stale := t.mem.stale } }

theorem DataOnly.trans {s t u : State} (a : DataOnly s t) (b : DataOnly t u) : DataOnly s u := by
  unfold DataOnly at a b ⊢
  rw [b, a]

theorem CachesOnly.dataOnly {s t : State} (h : CachesOnly s t) : DataOnly s t := by
  unfold DataOnly
  rw [h.1]

theorem dataOnly_vset (s : State) (n : Nat) (m : LaneMask) (f : Nat → Word) : DataOnly s (vset s n m f) := by
  unfold DataOnly vset vsetRow
  split <;> rfl

theorem dataOnly_sset (s : State) (n : Nat) (v : Word) : DataOnly s (sset s n v) := by
  unfold DataOnly
  rw [sset_frame]

theorem dataOnly_sset64 (s : State) (n : Nat) (v : BitVec 64) : DataOnly s (sset64 s n v) :=
  (dataOnly_sset s n _).trans (dataOnly_sset _ (n + 1) _)

theorem DataOnly.foldl {α : Type} (f : State → α → State) (hf : ∀ s x, DataOnly s (f s x)) :
    ∀ (xs : List α) (s : State), DataOnly s (xs.foldl f s)
  | [], _ => rfl
  | x :: xs, s => (hf s x).trans (DataOnly.foldl f hf xs (f s x))

/-- An operation that completes after its data was delivered leaves flight, and memory, the predicates, the tiles and the status
register stay. -/
theorem DataOnly.leavesFlight_completeOp {s t : State} (o : Op) (h : DataOnly s t) :
    Claims.leavesFlight s (completeOp o t) o ∧ Claims.keepsMemory s (completeOp o t) ∧
    (completeOp o t).w.pred = s.w.pred ∧ (completeOp o t).w.tile = s.w.tile ∧
    (completeOp o t).w.side = s.w.side ∧ (completeOp o t).w.astat = s.w.astat := by
  unfold Claims.leavesFlight Claims.keepsMemory
  simp only [completeOp_ops, completeOp_nextOp, completeOp_w_pc, completeOp_w_status, completeOp_w_stack, completeOp_w_trap,
    completeOp_w_mode, completeOp_w_pred, completeOp_w_tile, completeOp_w_side, completeOp_w_astat, memByte_completeOp,
    locByte_completeOp]
  rw [h]
  exact ⟨⟨rfl, rfl, rfl, rfl, rfl, rfl, rfl⟩, ⟨fun _ => rfl, fun _ => rfl⟩, rfl, rfl, rfl, rfl⟩

/-! ## Vector destinations (15 R382, R384) -/

theorem lane_maskFrom (p : Nat → Bool) {n : Nat} (hn : n ≤ 96) (l : Nat) :
    lane (maskFrom p n) l = (decide (l < n) && p l) := by
  induction n with
  | zero => simp [maskFrom, lane]
  | succ n ih =>
    have ih := ih (by omega)
    unfold lane at ih ⊢
    unfold maskFrom
    by_cases hp : p n = true
    · by_cases hl : l = n
      · subst hl; simp [hp, BitVec.getLsbD_twoPow]; omega
      · have hlt : l < n + 1 ↔ l < n := by omega
        simp [hp, ih, BitVec.getLsbD_twoPow, hlt, Ne.symm hl]
    · by_cases hl : l = n
      · subst hl; simp [hp, ih]
      · have hlt : l < n + 1 ↔ l < n := by omega
        simp [hp, ih, hlt]

/-- A lane is in the mask of a property exactly when it has it. -/
theorem lane_maskOf (p : Nat → Bool) {l : Nat} (hl : l < 96) : lane (maskOf p) l = p l := by
  simp [maskOf, lane_maskFrom, hl]

/-- Write f i l to lane l of register d + i, for the lanes of a mask and i below n. -/
def vsetRows (d n : Nat) (m : LaneMask) (f : Nat → Nat → Word) (s : State) : State :=
  (List.range n).foldl (fun t i => vset t (d + i) m (f i)) s

theorem vsetRows_succ (d n : Nat) (m : LaneMask) (f : Nat → Nat → Word) (s : State) :
    vsetRows d (n + 1) m f s = vset (vsetRows d n m f s) (d + n) m (f n) := by
  simp [vsetRows, List.range_succ]

theorem dataOnly_vsetRows (d n : Nat) (m : LaneMask) (f : Nat → Nat → Word) (s : State) : DataOnly s (vsetRows d n m f s) :=
  DataOnly.foldl _ (fun t i => dataOnly_vset t (d + i) m (f i)) _ s

@[simp] theorem vsetRows_w_sreg (d n : Nat) (m : LaneMask) (f : Nat → Nat → Word) (s : State) :
    (vsetRows d n m f s).w.sreg = s.w.sreg := by
  induction n with
  | zero => rfl
  | succ n ih => rw [vsetRows_succ, vset_w_sreg, ih]

theorem vget_vsetRows (d n : Nat) (m : LaneMask) (f : Nat → Nat → Word) (s : State) (k l : Nat) (hl : l < 96) :
    vget (vsetRows d n m f s) k l = if (d ≤ k ∧ k < d + n) ∧ lane m l = true then f (k - d) l else vget s k l := by
  induction n with
  | zero => rw [if_neg (by omega)]; rfl
  | succ n ih =>
    rw [vsetRows_succ, vget_vset _ _ _ _ _ _ hl, ih]
    by_cases hk : k = d + n
    · subst hk; simp
    · have e : k < d + (n + 1) ↔ k < d + n := by omega
      simp [hk, e]

theorem vrow_vsetRows_of_outside (d n : Nat) (m : LaneMask) (f : Nat → Nat → Word) (s : State) {k : Nat}
    (hk : k < d ∨ d + n ≤ k) : vrow (vsetRows d n m f s) k = vrow s k := by
  induction n with
  | zero => rfl
  | succ n ih => rw [vsetRows_succ, vrow_vset_ne _ _ _ (by omega), ih (by omega)]

/-- Word i of the data that a list gives a lane. -/
def dataWord (vals : List (Nat × List Word)) (i l : Nat) : Word :=
  ((vals.find? (fun x => x.1 == l)).map (fun x => x.2.getD i 0)).getD 0

/-- The lanes that a list names. -/
def laneMaskOf (vals : List (Nat × List Word)) : LaneMask := maskOf (fun l => vals.any (fun x => x.1 == l))

theorem lane_laneMaskOf (vals : List (Nat × List Word)) {l : Nat} (hl : l < 96) :
    lane (laneMaskOf vals) l = decide (l ∈ vals.map (·.1)) := by
  rw [laneMaskOf, lane_maskOf _ hl, Bool.eq_iff_iff]
  simp

/-- The data of a wave, not of an ejected lane, goes to the rows of its vector registers, in the lanes that the list names. -/
theorem writeVec_of_wave {o : Op} (ho : o.lane = none) (d n : Nat) (vals : List (Nat × List Word)) (s : State) :
    writeVec o d n vals s = vsetRows d n (laneMaskOf vals) (dataWord vals) s := by
  unfold writeVec
  rw [ho]; rfl

/-- With one entry for each lane, the data of a lane is that of its entry. -/
theorem dataWord_of_mem {vals : List (Nat × List Word)} (hn : (vals.map (·.1)).Nodup) {l : Nat} {ws : List Word}
    (h : (l, ws) ∈ vals) (i : Nat) : dataWord vals i l = ws.getD i 0 := by
  induction vals with
  | nil => cases h
  | cons x xs ih =>
    obtain ⟨hx, hxs⟩ := List.nodup_cons.1 hn
    rcases List.mem_cons.1 h with rfl | h
    · simp [dataWord]
    · have hne : x.1 ≠ l := fun e => hx (List.mem_map.2 ⟨_, h, e.symm⟩)
      have := ih hxs h
      simpa [dataWord, hne] using this

/-! ## The bytes and words of a load (00 R4; 10 R247; 15 R378, R379) -/

/-- sext is the value of the low n bits as two's complement. -/
theorem sext_eq_toInt (x n : Nat) (hn : 0 < n) : sext x n = (BitVec.ofNat n x).toInt := by
  obtain ⟨m, rfl⟩ : ∃ m, n = m + 1 := ⟨n - 1, by omega⟩
  have hp : 2 ^ (m + 1) = 2 * 2 ^ m := by rw [Nat.pow_succ, Nat.mul_comm]
  rw [BitVec.toInt_eq_toNat_cond, BitVec.toNat_ofNat]
  simp only [sext, Nat.add_one_sub_one, Nat.add_one_ne_zero, if_false]
  by_cases h : x % 2 ^ (m + 1) < 2 ^ m
  · rw [if_pos h, if_pos (by omega)]
  · rw [if_neg h, if_neg (by omega)]

theorem ofInt_sext (x n : Nat) (hn : 0 < n) : BitVec.ofInt 32 (sext x n) = (BitVec.ofNat n x).signExtend 32 := by
  rw [sext_eq_toInt x n hn]; rfl

/-- Word i of the bytes of an access of a size, extended as the type says. -/
def extendedWord (size : Nat) (signed : Bool) (bs : List Byte) (i : Nat) : Word :=
  if size = 1 then (if signed then (BitVec.ofNat 8 (numOf bs)).signExtend 32 else BitVec.ofNat 32 (numOf bs))
  else if size = 2 then (if signed then (BitVec.ofNat 16 (numOf bs)).signExtend 32 else BitVec.ofNat 32 (numOf bs))
  else BitVec.ofNat 32 (numOf ((bs.drop (4 * i)).take 4))

/-- The place's check value is good, where the load reads one: region 2 has none (02 R59). -/
def goodPlace (v : State) (loc : Bool) (a : Nat) : Prop :=
  if loc then locDev v.g (a / 32) = 0 else paRegion a ≠ 2 → sectorDev v (a / 32) = 0

theorem poisonCause_of_good {devs : List (BitVec 16)} (h : ∀ d ∈ devs, d = 0) : poisonCause devs = none := by
  have h1 : devs.contains 0xFFFF = false := by
    rw [Bool.eq_false_iff]
    intro hc
    exact absurd (h _ (List.contains_iff_mem.1 hc)) (by decide)
  have h2 : devs.any (· != 0) = false := by
    rw [List.any_eq_false]
    intro d hd
    simp [h d hd]
  simp only [poisonCause, h1, h2, Bool.false_eq_true, if_false]

theorem mem_readSectors {ps : List Nat} {x : Nat} : x ∈ readSectors ps ↔ ∃ a ∈ ps, paRegion a ≠ 2 ∧ a / 32 = x := by
  simp [readSectors, and_assoc]

theorem sectorDev_of_good {v : State} {ps : List Nat} (h : ∀ a ∈ ps, goodPlace v false a) :
    ∀ x ∈ readSectors ps, sectorDev v x = 0 := by
  intro x hx
  obtain ⟨a, ha, hr, rfl⟩ := mem_readSectors.1 hx
  exact h a ha hr

theorem locDev_of_good {v : State} {ps : List Nat} (h : ∀ a ∈ ps, goodPlace v true a) :
    ∀ x ∈ (ps.map (· / 32)).eraseDups, locDev v.g x = 0 := by
  intro x hx
  obtain ⟨a, ha, rfl⟩ := List.mem_map.1 (List.mem_eraseDups.1 hx)
  exact h a ha

/-- An access whose sectors are good meets no POISON. -/
theorem accPoison_of_good {v : State} {loc : Bool} {a : LaneAcc} (h : ∀ x ∈ a.bytes, goodPlace v loc x) :
    accPoison v loc a = none := by
  cases loc with
  | true =>
    refine poisonCause_of_good (fun d hd => ?_)
    obtain ⟨x, hx, rfl⟩ := List.mem_map.1 hd
    exact locDev_of_good h x hx
  | false =>
    refine poisonCause_of_good (fun d hd => ?_)
    obtain ⟨x, hx, rfl⟩ := List.mem_map.1 hd
    exact sectorDev_of_good h x hx

/-- With every sector good no lane of a load meets POISON. -/
theorem poisonLanes_of_good {s v : State} {o : Op} {dst : LoadDst} {loc : Bool} {accs : List LaneAcc}
    (h : ∀ x ∈ accs.flatMap (·.bytes), goodPlace v loc x) : poisonLanes s v o dst loc accs = [] := by
  refine List.filterMap_eq_nil_iff.2 (fun a ha => ?_)
  have : accPoison v loc a = none := accPoison_of_good (fun x hx => h x (List.mem_flatMap_of_mem ha hx))
  simp [this]

/-- With every sector good no sector takes its poison pattern. -/
theorem poisonRead_of_good {v : State} {loc : Bool} {accs : List LaneAcc} (s : State)
    (h : ∀ x ∈ accs.flatMap (·.bytes), goodPlace v loc x) : poisonRead v loc accs s = s := by
  cases loc with
  | true =>
    have hnone : (((accs.flatMap (·.bytes)).map (· / 32)).eraseDups).filter (fun x => locDev v.g x != 0) = [] :=
      List.filter_eq_nil_iff.2 (fun x hx => by simp [locDev_of_good h x hx])
    simp only [poisonRead, if_true, hnone, List.foldl_nil]
  | false =>
    have hnone : (readSectors (accs.flatMap (·.bytes))).filter (fun x => sectorDev v x != 0) = [] :=
      List.filter_eq_nil_iff.2 (fun x hx => by simp [sectorDev_of_good h x hx])
    simp only [poisonRead, Bool.false_eq_true, if_false, hnone, List.foldl_nil]

/-- The words of an access whose sectors are good, of 1, 2 or a multiple of 4 bytes: its bytes, little-endian and extended. -/
theorem accWords_of_good {v : State} {loc : Bool} {got : List (Nat × Byte)} {size : Nat} {signed : Bool} {a : LaneAcc}
    (hsize : size = 1 ∨ size = 2 ∨ 4 ≤ size) (hne : a.bytes ≠ [])
    (h : ∀ x ∈ (unbound got a).bytes, goodPlace v loc x) :
    accWords v loc got size signed a =
      (List.range (max 1 (size / 4))).map (extendedWord size signed (a.bytes.map (boundByte v loc got))) := by
  have hp : accPoison v loc (unbound got a) = none := accPoison_of_good h
  unfold accWords
  rw [if_neg (by simp [hne, hp])]
  rcases hsize with rfl | rfl | h4
  · simp [extendedWord, ofInt_sext]
  · simp [extendedWord, ofInt_sext]
  · have h1 : size ≠ 1 := by omega
    have h2 : size ≠ 2 := by omega
    have hm : max 1 (size / 4) = size / 4 := by omega
    simp only [if_neg (Nat.not_lt.2 h4), hm]
    refine List.map_congr_left (fun i _ => ?_)
    simp [extendedWord, h1, h2]

/-! ## Memory as a load sees it (10 R241) -/

/-- Local memory as a load sees it is the group's. -/
@[simp] theorem loadView_g (s : State) (o : Op) : (loadView s o).g = s.g := by
  unfold loadView
  refine foldl_keeps (fun t => t.g = s.g) _ (fun t p ht => ?_) s.ops s rfl
  split
  · split <;> exact ht
  · exact ht

/-- What a load sees after its lines were served differs in caches alone. -/
theorem loadView_of_cachesOnly {s t : State} (o : Op) (h : CachesOnly s t) :
    loadView t o = { loadView s o with coh := t.coh, mem := { (loadView s o).mem with stale := t.mem.stale } } := by
  have hops : t.ops = s.ops := by rw [h.1]
  unfold loadView
  rw [hops]
  conv => lhs; rw [h.1]
  refine List.foldl_hom (fun u : State => { u with coh := t.coh, mem := { u.mem with stale := t.mem.stale } }) (fun u p => ?_)
  split
  · split <;> rfl
  · rfl

theorem goodPlace_of_cachesOnly {s t : State} (o : Op) (h : CachesOnly s t) (loc : Bool) (a : Nat) :
    goodPlace (loadView t o) loc a ↔ goodPlace (loadView s o) loc a := by
  rw [loadView_of_cachesOnly o h]; rfl

theorem boundByte_of_cachesOnly {s t : State} (o : Op) (h : CachesOnly s t) (loc : Bool) (got : List (Nat × Byte)) :
    boundByte (loadView t o) loc got = boundByte (loadView s o) loc got := by
  rw [loadView_of_cachesOnly o h]; rfl

/-! ## Registers after a delivery -/

theorem sget_of_w_eq {s t : State} (h : t.w = s.w) (n : Nat) : sget t n = sget s n := by
  unfold sget; rw [h]

theorem vrow_of_w_eq {s t : State} (h : t.w = s.w) (n : Nat) : vrow t n = vrow s n := by
  unfold vrow; rw [h]

theorem regAfter_of_w_eq {s t : State} (h : t.w = s.w) (n : Nat) (v : Word) : Claims.regAfter t n v = Claims.regAfter s n v := by
  unfold Claims.regAfter; rw [h]

theorem sget_sset_eq_regAfter (s : State) (n : Nat) (v : Word) : sget (sset s n v) n = Claims.regAfter s n v := by
  rw [sget_sset, if_pos rfl]; rfl

theorem regAfter_sset (s : State) (k : Nat) (u : Word) (n : Nat) (v : Word) :
    Claims.regAfter (sset s k u) n v = Claims.regAfter s n v := by
  have h : ejectedMask (sset s k u).w = ejectedMask s.w := by simp only [ejectedMask, sset_w_ejected]
  unfold Claims.regAfter; rw [h]

/-- The registers of a pair after it is written. -/
theorem sget_sset64_low (s : State) (n : Nat) (hi lo : Word) : sget (sset64 s n (hi ++ lo)) n = Claims.regAfter s n lo := by
  rw [sset64, sget_sset_ne _ _ (Nat.ne_of_lt (Nat.lt_succ_self n)), sget_sset_eq_regAfter, BitVec.extractLsb'_append_eq_right]

theorem sget_sset64_high (s : State) (n : Nat) (hi lo : Word) :
    sget (sset64 s n (hi ++ lo)) (n + 1) = Claims.regAfter s (n + 1) hi := by
  rw [sset64, sget_sset_eq_regAfter, regAfter_sset, BitVec.extractLsb'_append_eq_left]

theorem sget_sset64_ne (s : State) {n k : Nat} (v : BitVec 64) (h0 : k ≠ n) (h1 : k ≠ n + 1) :
    sget (sset64 s n v) k = sget s k := by
  rw [sset64, sget_sset_ne _ _ h1, sget_sset_ne _ _ h0]

/-- A vector load of a wave writes as many rows as its size has words, at least one. -/
theorem writeDst_vector {o : Op} (ho : o.lane = none) {dst : LoadDst} {d size : Nat}
    (hdst : (dst = .vec d ∧ size ∈ [1, 2, 4, 8]) ∨ (dst = .line d ∧ size = 128)) (vals : List (Nat × List Word)) (s : State) :
    writeDst o dst size vals s = vsetRows d (max 1 (size / 4)) (laneMaskOf vals) (dataWord vals) s := by
  rcases hdst with ⟨rfl, -⟩ | ⟨rfl, rfl⟩
  · exact writeVec_of_wave ho d _ vals s
  · exact writeVec_of_wave ho d 32 vals s

/-! ## The event that binds a load (10 R241, R247; 13 R316) -/

/-- The places that earlier events have left of a load. -/
theorem unboundPlaces_eq (o : Op) (accs : List LaneAcc) :
    (accs.map (unbound o.got)).flatMap (·.bytes) = Claims.unboundPlaces o accs := by
  rw [List.flatMap_map]; rfl

/-- The data that a load delivers for each of its lanes. -/
def loadVals (v : State) (loc : Bool) (o : Op) (size : Nat) (signed : Bool) (accs : List LaneAcc) : List (Nat × List Word) :=
  accs.map (fun a => (a.lane, (List.range (max 1 (size / 4))).map (extendedWord size signed (a.bytes.map (boundByte v loc o.got)))))

@[simp] theorem loadVals_lanes (v : State) (loc : Bool) (o : Op) (size : Nat) (signed : Bool) (accs : List LaneAcc) :
    (loadVals v loc o size signed accs).map (·.1) = accs.map (·.lane) := by
  simp [loadVals]

/-- With one access for each lane, word i of a lane is that of its access. -/
theorem dataWord_loadVals {accs : List LaneAcc} (hlanes : (accs.map (·.lane)).Nodup) {x : LaneAcc} (hx : x ∈ accs)
    (v : State) (loc : Bool) (o : Op) (signed : Bool) {size i : Nat} (hi : i < max 1 (size / 4)) :
    dataWord (loadVals v loc o size signed accs) i x.lane =
      extendedWord size signed (x.bytes.map (boundByte v loc o.got)) i := by
  have hmem : (x.lane, (List.range (max 1 (size / 4))).map (extendedWord size signed (x.bytes.map (boundByte v loc o.got)))) ∈
      loadVals v loc o size signed accs := List.mem_map.2 ⟨x, hx, rfl⟩
  rw [dataWord_of_mem (by rw [loadVals_lanes]; exact hlanes) hmem, List.getD_eq_getElem?_getD]
  simp [hi]

/-- Of a wave's load, whatever its destination but a tile, the delivery writes registers alone. -/
theorem dataOnly_writeDst {o : Op} (ho : o.lane = none) {dst : LoadDst} (hdst : ∀ x, dst ≠ .tile x) (size : Nat)
    (vals : List (Nat × List Word)) (s : State) : DataOnly s (writeDst o dst size vals s) := by
  cases dst with
  | vec d =>
    rw [writeDst, writeVec_of_wave ho]
    exact dataOnly_vsetRows _ _ _ _ s
  | line d =>
    rw [writeDst, writeVec_of_wave ho]
    exact dataOnly_vsetRows _ _ _ _ s
  | scal d =>
    match vals with
    | [] => exact rfl
    | (_, []) :: _ => exact rfl
    | (_, [w]) :: _ => exact dataOnly_sset s d w
    | (_, w0 :: w1 :: _) :: _ => exact dataOnly_sset64 s d (w1 ++ w0)
  | tile x => exact absurd rfl (hdst x)

section
variable {s : State} {o : Op} {loc : Bool} {size : Nat} {signed : Bool} {dst : LoadDst} {accs : List LaneAcc}
  (haccs : ∀ x ∈ accs, x.lane < 96 ∧ x.bytes.length = size)
  (hgood : ∀ a ∈ Claims.unboundPlaces o accs, goodPlace (loadView s o) loc a)
  (hserved : loc = false → (fillFor s o (Claims.unboundPlaces o accs)).isSome = true)

section
include haccs hgood hserved

/-- A load of accesses of one size with every sector good and every line served binds what memory holds as the load sees it, delivers
it and leaves flight. -/
theorem bindLoad_of_good (hsize : size = 1 ∨ size = 2 ∨ 4 ≤ size) :
    ∃ t, CachesOnly s t ∧ bindLoad o loc size signed dst accs s =
      completeOp o (writeDst o dst size (loadVals (loadView s o) loc o size signed accs) t) := by
  obtain ⟨t, hfill, ht⟩ : ∃ t, (if loc then some s else fillFor s o (Claims.unboundPlaces o accs)) = some t ∧ CachesOnly s t := by
    cases loc with
    | true => exact ⟨s, rfl, .refl s⟩
    | false =>
      obtain ⟨t, h⟩ := Option.isSome_iff_exists.1 (hserved rfl)
      exact ⟨t, h, cachesOnly_fillFor h⟩
  have hleft : ∀ a ∈ (accs.map (unbound o.got)).flatMap (·.bytes), goodPlace (loadView t o) loc a := by
    intro a ha
    exact (goodPlace_of_cachesOnly o ht loc a).2 (hgood a (unboundPlaces_eq o accs ▸ ha))
  have hvals : accs.map (fun a => (a.lane, accWords (loadView t o) loc o.got (if 96 ≤ a.lane then 4 else size) signed a)) =
      loadVals (loadView s o) loc o size signed accs := by
    refine List.map_congr_left (fun a ha => ?_)
    obtain ⟨hlane, hlen⟩ := haccs a ha
    have hne : a.bytes ≠ [] := List.ne_nil_of_length_pos (by omega)
    have hgood' : ∀ x ∈ (unbound o.got a).bytes, goodPlace (loadView t o) loc x :=
      fun x hx => hleft x (List.mem_flatMap_of_mem (List.mem_map_of_mem ha) hx)
    rw [if_neg (Nat.not_le.2 hlane), accWords_of_good hsize hne hgood', boundByte_of_cachesOnly o ht]
  refine ⟨t, ht, ?_⟩
  simp only [bindLoad, unboundPlaces_eq, hfill, poisonLanes_of_good hleft, poisonRead_of_good t hleft, lanesTrap, hvals]

end

section
variable (hmay : Claims.mayPerform s o) (hk : o.kind = .load loc size signed dst accs)
  (horder : inOrder s blocksLoad o = true) (hqueue : queueOrdered s o = true)
include hmay hk horder hqueue

/-- LOAD_DATA_RETURN of a load that may bind is its binding, with the faults of open instructions settled after it. -/
theorem loadDataReturn_of_bindable :
    exec (.loadDataReturn o.id) s = .next (settleAll (bindLoad o loc size signed dst accs s)) := by
  obtain ⟨hfind, -, hidle, hown, -, -, hwaits, hfault⟩ := hmay
  have hb : bindable s o = true := by
    simp [bindable, hfault o (List.mem_of_find?_eq_some hfind), hwaits, hk, horder, hqueue]
  have hfocus : (focused s && s.w.handle == o.owner) = true := by simp [focused, hidle, hown]
  show execLoadDataReturn o.id s = _
  simp only [execLoadDataReturn, hfind, returnData, hb, if_true, withWave, hfocus, hk]

include haccs hgood hserved

/-- What LOAD_DATA_RETURN of a load with every sector good and every line served comes to, whatever its destination but a tile. -/
theorem loadDataReturn_of_good (hsize : size = 1 ∨ size = 2 ∨ 4 ≤ size) (hdst : ∀ x, dst ≠ .tile x) :
    ∃ t, CachesOnly s t ∧ DataOnly s (writeDst o dst size (loadVals (loadView s o) loc o size signed accs) t) ∧
      exec (.loadDataReturn o.id) s =
        .next (completeOp o (writeDst o dst size (loadVals (loadView s o) loc o size signed accs) t)) := by
  obtain ⟨t, ht, hbind⟩ := bindLoad_of_good (signed := signed) (dst := dst) haccs hgood hserved hsize
  have hexec := loadDataReturn_of_bindable hmay hk horder hqueue
  obtain ⟨-, -, -, -, -, hlane, -, hfault⟩ := hmay
  have hdata := ht.dataOnly.trans (dataOnly_writeDst hlane hdst size (loadVals (loadView s o) loc o size signed accs) t)
  refine ⟨t, ht, hdata, ?_⟩
  rw [hexec, hbind, settleAll_of_noFault]
  have hops : (writeDst o dst size (loadVals (loadView s o) loc o size signed accs) t).ops = s.ops := by
    rw [hdata]
  intro p hp
  rw [completeOp_ops, hops] at hp
  exact hfault p (List.mem_filter.1 hp).1

/-- A load with a vector destination, or LDLINE: each lane's registers take the words of its access (15 R382, R384). -/
theorem vectorLoad_returns {d : Nat} (hdst : (dst = .vec d ∧ size ∈ [1, 2, 4, 8]) ∨ (dst = .line d ∧ size = 128))
    (hlanes : (accs.map (·.lane)).Nodup) :
    Claims.goes (.loadDataReturn o.id) s (fun t =>
      Claims.leavesFlight s t o ∧ Claims.keepsMemory s t ∧
      (∀ x ∈ accs, ∀ i, i < max 1 (size / 4) →
        vget t (d + i) x.lane = extendedWord size signed (x.bytes.map (boundByte (loadView s o) loc o.got)) i) ∧
      (∀ l, l < 96 → l ∉ accs.map (·.lane) → ∀ n, vget t n l = vget s n l) ∧
      (∀ n, n < d ∨ d + max 1 (size / 4) ≤ n → vrow t n = vrow s n) ∧
      t.w.sreg = s.w.sreg ∧ t.w.pred = s.w.pred ∧ t.w.tile = s.w.tile ∧ t.w.side = s.w.side ∧ t.w.astat = s.w.astat) := by
  have hsize : size = 1 ∨ size = 2 ∨ 4 ≤ size := by
    rcases hdst with ⟨-, hs⟩ | ⟨-, rfl⟩
    · simp only [List.mem_cons, List.not_mem_nil, or_false] at hs; omega
    · omega
  have hne : ∀ x, dst ≠ .tile x := by rcases hdst with ⟨rfl, -⟩ | ⟨rfl, -⟩ <;> simp
  obtain ⟨t, ht, hdata, hexec⟩ := loadDataReturn_of_good haccs hgood hserved hmay hk horder hqueue hsize hne
  obtain ⟨-, -, -, -, -, ho, -⟩ := hmay
  obtain ⟨hflight, hmem, hpred, htile, hside, hastat⟩ := hdata.leavesFlight_completeOp o
  refine ⟨_, hexec, hflight, hmem, ?_⟩
  rw [writeDst_vector ho hdst] at hpred htile hside hastat ⊢
  have hmask (l : Nat) (hl : l < 96) :
      lane (laneMaskOf (loadVals (loadView s o) loc o size signed accs)) l = true ↔ l ∈ accs.map (·.lane) := by
    rw [lane_laneMaskOf _ hl, loadVals_lanes, decide_eq_true_eq]
  refine ⟨fun x hx i hi => ?_, fun l hl hnot n => ?_, fun n hn => ?_, ?_, hpred, htile, hside, hastat⟩
  · have hl := (haccs x hx).1
    rw [vget_completeOp, vget_vsetRows _ _ _ _ _ _ _ hl, if_pos ⟨by omega, (hmask _ hl).2 (List.mem_map_of_mem hx)⟩,
      Nat.add_sub_cancel_left, dataWord_loadVals hlanes hx _ _ _ _ hi]
  · rw [vget_completeOp, vget_vsetRows _ _ _ _ _ _ _ hl, if_neg (fun h => hnot ((hmask l hl).1 h.2)), vget,
      vrow_of_w_eq ht.w_eq, vget]
  · rw [vrow_completeOp, vrow_vsetRows_of_outside _ _ _ _ _ hn, vrow_of_w_eq ht.w_eq]
  · rw [completeOp_w_sreg, vsetRows_w_sreg, ht.w_eq]

/-- SLD: the register, or the pair for 8 bytes, takes the words of the one access (15 R383). -/
theorem scalarLoad_returns {d : Nat} {x : LaneAcc} (hdst : dst = .scal d) (hsize : size ∈ [1, 2, 4, 8]) (hx : accs = [x]) :
    let word := extendedWord size signed (x.bytes.map (boundByte (loadView s o) loc o.got))
    Claims.goes (.loadDataReturn o.id) s (fun t =>
      Claims.leavesFlight s t o ∧ Claims.keepsMemory s t ∧
      sget t d = Claims.regAfter s d (word 0) ∧ (size = 8 → sget t (d + 1) = Claims.regAfter s (d + 1) (word 1)) ∧
      (∀ n, n ≠ d → (size = 8 → n ≠ d + 1) → sget t n = sget s n) ∧
      t.w.vreg = s.w.vreg ∧ t.w.pred = s.w.pred ∧ t.w.tile = s.w.tile ∧ t.w.side = s.w.side ∧ t.w.astat = s.w.astat) := by
  intro word
  subst hdst hx
  simp only [List.mem_cons, List.not_mem_nil, or_false] at hsize
  obtain ⟨t, ht, hdata, hexec⟩ :=
    loadDataReturn_of_good haccs hgood hserved hmay hk horder hqueue (by omega) (fun _ => LoadDst.noConfusion)
  obtain ⟨hflight, hmem, hpred, htile, hside, hastat⟩ := hdata.leavesFlight_completeOp o
  refine ⟨_, hexec, hflight, hmem, ?_⟩
  by_cases h8 : size = 8
  · have hw : writeDst o (.scal d) size (loadVals (loadView s o) loc o size signed [x]) t = sset64 t d (word 1 ++ word 0) := by
      subst h8; rfl
    rw [hw] at hpred htile hside hastat ⊢
    refine ⟨?_, fun _ => ?_, fun n hn hn1 => ?_, ?_, hpred, htile, hside, hastat⟩
    · rw [sget_completeOp, sget_sset64_low, regAfter_of_w_eq ht.w_eq]
    · rw [sget_completeOp, sget_sset64_high, regAfter_of_w_eq ht.w_eq]
    · rw [sget_completeOp, sget_sset64_ne _ _ hn (hn1 h8), sget_of_w_eq ht.w_eq]
    · rw [completeOp_w_vreg, sset64_w_vreg, ht.w_eq]
  · have hw : writeDst o (.scal d) size (loadVals (loadView s o) loc o size signed [x]) t = sset t d (word 0) := by
      have one : max 1 (size / 4) = 1 := by omega
      simp only [loadVals, one]; rfl
    rw [hw] at hpred htile hside hastat ⊢
    refine ⟨?_, fun h => absurd h h8, fun n hn _ => ?_, ?_, hpred, htile, hside, hastat⟩
    · rw [sget_completeOp, sget_sset_eq_regAfter, regAfter_of_w_eq ht.w_eq]
    · rw [sget_completeOp, sget_sset_ne _ _ hn, sget_of_w_eq ht.w_eq]
    · rw [completeOp_w_vreg, sset_w_vreg, ht.w_eq]

end
end

/-- The byte that a load binds is the one that its statement names. -/
theorem boundByte_eq_foundByte (s : State) (o : Op) (loc : Bool) :
    boundByte (loadView s o) loc o.got = Claims.foundByte o (fun a =>
      if loc then locByte s.g a else if paRegion a = 2 then 0 else memByte (loadView s o) a) := by
  funext a
  simp only [boundByte, placeRead, loadByte, loadView_g]

/-- Settles O31: the event binds the bytes that the load sees, which serving its lines leaves alone, writes the words that they
make, and leaves flight with nothing else to settle. -/
theorem loadsReturnTheirData : Obligations.LoadsReturnTheirData := by
  unfold Obligations.LoadsReturnTheirData
  intro s o loc size signed dst accs hmay hk horder hqueue v haccs hgood hserved bytes word
  have hword (x : LaneAcc) (i : Nat) :
      word x i = extendedWord size signed (x.bytes.map (boundByte (loadView s o) loc o.got)) i := by
    rw [boundByte_eq_foundByte]; rfl
  simp only [hword]
  refine ⟨fun d hdst hlanes => ?_, fun d x hdst hsize hx => ?_⟩
  · exact vectorLoad_returns haccs hgood hserved hmay hk horder hqueue hdst hlanes
  · exact scalarLoad_returns haccs hgood hserved hmay hk horder hqueue hdst hsize hx

end Sys2Proof.Machine
end

section
/-!
A step without input is one turn of the wave in focus, and a step with an event is that event (04 R104, R105; 10 R249, R250;
13 R311-R313).
-/

namespace Sys2Proof.Machine

open Sys2Proof

/-! ## One turn (13 R311-R313; 10 R249, R250) -/

/-- In the clause that runs, the word at the pc is that of the body. -/
theorem wordAt_of_body {s : State} {c : Clause} {k : Nat} {word : Word} (hpc : (s.w.pc - c.base).toNat / 4 = k + 1)
    (hword : c.body[k]? = some word) : wordAt s c = .ok word := by
  unfold wordAt clauseIndex
  rw [hpc, Nat.add_sub_cancel, hword]

/-- The clause whose body holds the pc is the one that runs. -/
theorem running_of_body {s : State} {c : Clause} {k : Nat} (hc : s.w.clause = some c)
    (hpc : (s.w.pc - c.base).toNat / 4 = k + 1) (hk : k < headerLen c.header) : running s = some c := by
  have hin : inClause c s.w.pc = true := by
    simp only [inClause, clauseIndex, hpc, Bool.and_eq_true, decide_eq_true_eq]
    omega
  simp only [running, hc, hin, if_true]

/-- What the turn of a ready wave comes to, with nothing due, at a word of its clause that may issue. -/
def turnOutcome (s : State) (i : Instr) : Out := issued s.w.handle (heldOut s (exec i (noteReads s i)))

theorem turnReady_of_word {s : State} {c : Clause} {word : Word} {i : Instr} (hdue : s.w.stackDue = none)
    (hwin : s.w.winTraps = []) (hrpc : curRpc s.w ≠ some s.w.pc) (hrun : running s = some c) (hword : wordAt s c = .ok word)
    (hdec : decode word = .ok i) (hcan : canIssue s i = true) : turnReady s = some (turnOutcome s i) := by
  have htrap : stackTrap s.w = none := by simp [stackTrap, hdue]
  have hwd : windowDue s = none := by simp [windowDue, hwin]
  have hi : instrOf word = i := by simp [instrOf, hdec]
  simp only [turnReady, htrap, if_neg hrpc, hrun, issueWave, hwd, issueWord, hword, hi, hcan, if_true, turnOutcome]

/-- With a turn that the wave in focus can take, a step without input is that turn. -/
theorem step_of_waveTurn {s : State} {o : Out} (hin : s.inputs = []) (hpow : s.pkg.power = true)
    (hturn : waveTurn s = some o) : step s = settledOut s o := by
  simp only [step, moduleStep, hin, hpow, if_true, autoStep, hturn]

/-- What was done and need not wait has taken place. -/
theorem settledOut_of_served (s : State) {t : State} (h : stalls t = false) :
    settledOut s (.next t) = .next (afterTurn (endWalks t)) := by
  unfold stalls at h
  simp [settledOut, h]

/-- What has to wait for a line or a translation has not taken place. -/
theorem settledOut_of_stalls (s : State) {t : State} (h : stalls t = true) :
    settledOut s (.next t) = .next (afterTurn s) := by
  unfold stalls at h
  simp [settledOut, h]

/-- A free turn of a ready wave, with nothing due, at a word of its clause: the step is what the word's instruction comes to. -/
theorem step_of_turnOutcome {s : State} {i : Instr} (hin : s.inputs = []) (hpow : s.pkg.power = true)
    (hfree : turnFree s = true) (hstat : s.w.status = .ready) (hready : turnReady s = some (turnOutcome s i))
    (hserved : served (some (turnOutcome s i)) = some (turnOutcome s i)) : step s = settledOut s (turnOutcome s i) := by
  have hres : resume s = s := by simp [resume, hstat]
  exact step_of_waveTurn hin hpow (by rw [waveTurn, if_pos hfree, hres, hready, hserved])

/-- A next state that no line and no translation keeps back has taken place. -/
theorem step_of_turn_next {s u : State} {i : Instr} (hin : s.inputs = []) (hpow : s.pkg.power = true)
    (hfree : turnFree s = true) (hstat : s.w.status = .ready) (hready : turnReady s = some (turnOutcome s i))
    (hout : turnOutcome s i = .next u) (hu : stalls u = false) : step s = .next (afterTurn (endWalks u)) := by
  have hserved : served (some (turnOutcome s i)) = some (turnOutcome s i) := by simp [hout, served, hu]
  rw [step_of_turnOutcome hin hpow hfree hstat hready hserved, hout, settledOut_of_served s hu]

/-- A wave that waits behind its open instructions keeps its age; another becomes the youngest of its slot. -/
def agedAfter (h : BitVec 64) (t : State) : State := if t.w.status = .waiting .interlock then t else noteIssue h t

theorem turnOutcome_of_next {s t : State} {i : Instr} (h : exec i (noteReads s i) = .next t) :
    turnOutcome s i = .next (agedAfter s.w.handle (heldTrap s t)) := by
  rw [turnOutcome, h]; rfl

/-- With no instruction open the reads noted before are forgotten, and no trap is held back. -/
theorem noteReads_of_noneOpen {s : State} (h : openOps s = []) (i : Instr) :
    noteReads s i = { s with w := { s.w with readsSince := [] } } := by
  simp [noteReads, h]

theorem heldTrap_of_noneOpen {s : State} (h : openOps s = []) (t : State) : heldTrap s t = t := by
  simp [heldTrap, h]

theorem heldTrap_of_someOpen {s : State} (h : openOps s ≠ []) (t : State) :
    heldTrap s t = if tookTrap s t = true then { s with w := { s.w with status := .waiting .interlock } } else t := by
  simp [heldTrap, h, hold]

/-! ## Events (log 1, log 12) -/

/-- A row without a word is an event that the outside may raise. -/
theorem isEvent_of_no_word {i : Instr} (h : encode i = none) (hu : ∀ w, i ≠ .unassignedEncoding w) : isEvent i = true := by
  unfold isEvent
  split
  · exact absurd rfl (hu _)
  · rw [h]; rfl

theorem step_of_event {s : State} {rest : List Input} {i : Instr} (hin : s.inputs = .event i :: rest)
    (hpow : s.pkg.power = true) (hev : isEvent i = true) :
    step s = settledOut { s with inputs := rest } (exec i { s with inputs := rest }) := by
  simp [step, moduleStep, hin, hpow, inputStep, hev]

theorem step_of_event_unpowered {s : State} {rest : List Input} {i : Instr} (hin : s.inputs = .event i :: rest)
    (hpow : s.pkg.power = false) (hi : i ≠ .powerOn) : step s = .fault .noPower := by
  have hans : answersUnpowered (.event i) = false := by
    unfold answersUnpowered
    split
    · rename_i heq; injection heq with heq; exact absurd heq hi
    · rfl
  simp [step, moduleStep, hin, hpow, hans]

/-! ## What a step ends with (04 R105; 07 R195) -/

/-- With no walk ended in a fault there is nothing to read. -/
theorem endWalks_of_none {s : State} (h : s.xlt.ended = []) : endWalks s = s := by
  unfold endWalks
  rw [h, List.foldl_nil, ← h]

/-- A turn's end fills and orders the slots' sets, and nothing else. -/
theorem afterTurn_frame (s : State) : afterTurn s = { s with slots := (afterTurn s).slots } := rfl

/-- Settles O55: the turn is unfolded once, down to the outcome of the word's instruction; what the step adds to that outcome is stated
by the lemmas about what a step ends with. -/
theorem stepRunsTheDecodedInstruction : Obligations.StepRunsTheDecodedInstruction := by
  unfold Obligations.StepRunsTheDecodedInstruction
  refine ⟨?_, ?_, fun s hin hpow => ?_, fun s h hended => ?_⟩
  · intro s c k word i after hin hpow hfree hstat hdue hwin hrpc hc hpc hk hword hdec hcan
    have hready : turnReady s = some (turnOutcome s i) :=
      turnReady_of_word hdue hwin hrpc (running_of_body hc hpc hk) (wordAt_of_body hpc hword) hdec hcan
    refine ⟨fun hopen t ht hst => ?_, fun hopen t u ht hu hst => ?_, fun f hf => ?_, fun r hr => ?_⟩
    · rw [← noteReads_of_noneOpen hopen i] at ht
      have hout := turnOutcome_of_next ht
      rw [heldTrap_of_noneOpen hopen] at hout
      exact step_of_turn_next hin hpow hfree hstat hready hout hst
    · have hout := turnOutcome_of_next ht
      rw [heldTrap_of_someOpen hopen] at hout
      subst hu
      exact step_of_turn_next hin hpow hfree hstat hready hout hst
    · have hout : turnOutcome s i = .fault f := by rw [turnOutcome, hf]; rfl
      rw [step_of_turnOutcome hin hpow hfree hstat hready (by rw [hout]; rfl), hout]; rfl
    · have hout : turnOutcome s i = .refused r := by rw [turnOutcome, hr]; rfl
      rw [step_of_turnOutcome hin hpow hfree hstat hready (by rw [hout]; rfl), hout]; rfl
  · intro s rest i hin henc hu
    refine ⟨fun hpow t ht => ?_, step_of_event_unpowered hin⟩
    have hstep := step_of_event hin hpow (isEvent_of_no_word henc hu)
    rw [ht] at hstep
    exact ⟨fun hs => hstep.trans (settledOut_of_served _ hs), fun hs => hstep.trans (settledOut_of_stalls _ hs)⟩
  · simp [step, moduleStep, hin, hpow]
  · refine ⟨⟨(afterTurn (noteIssue h s)).slots, ?_⟩, by rw [stalls, endWalks_of_none hended]⟩
    rw [endWalks_of_none (s := noteIssue h s) hended, afterTurn_frame]
    rfl

end Sys2Proof.Machine
end

section
/-!
Double faults: what a trap poisons, the frame of a halt, and the instructions that are a double fault in a handler
(01 R33; 04 R121; 16 R430).
-/

namespace Sys2Proof.Machine

open Sys2Proof

/-! ## What a trap poisons (01 R33) -/

theorem get_foldl_put_of_notMem {α : Type} [DecidableEq α] (d v : α) (ks : List Nat) (t : Tab α) {n : Nat} (h : n ∉ ks) :
    Tab.get d (ks.foldl (fun u k => Tab.put d u k v) t) n = Tab.get d t n := by
  induction ks generalizing t with
  | nil => rfl
  | cons k ks ih =>
    obtain ⟨hk, hks⟩ := not_or.1 (mt List.mem_cons.2 h)
    rw [List.foldl_cons, ih _ hks, Tab.get_put, if_neg hk]

theorem sectorDev_poisonBad_of_notMem (x : Trap) (s : State) {n : Nat} (h : n ∉ x.bad) :
    sectorDev (poisonBad x s) n = sectorDev s n := by
  simp only [sectorDev, poisonBad, get_foldl_put_of_notMem 0 0xFFFF x.bad s.mem.dev h]

theorem locDev_poisonBad_of_notMem (x : Trap) (s : State) {n : Nat} (h : n ∉ x.badLoc) :
    locDev (poisonBad x s).g n = locDev s.g n :=
  get_foldl_put_of_notMem 0 0xFFFF x.badLoc s.g.ldev h

/-- A trap that met no mismatch and no walk poisons nothing. -/
theorem poisonBad_of_clean {x : Trap} (s : State) (hb : x.bad = []) (hl : x.badLoc = []) (hw : x.walks = []) :
    poisonBad x s = s := by
  simp only [poisonBad, hb, hl, hw, List.foldl_nil, List.map_nil, List.nil_append]

/-! ## Double faults (04 R121; 16 R430) -/

/-- The state with another list of fault entries of the wave. -/
def withFaults (fs : List FaultEntry) (s : State) : State :=
  { s with w := { s.w with keys := { s.w.keys with faults := fs } } }

/-- A double fault halts, with the cause of the trap that the handler serves, or without a handler its own; an entry that it reports
leaves the list only there. -/
theorem takeTrap_of_doubleFault {s : State} (x : Trap) (hl : s.lane = none)
    (h : s.w.trap.on = true ∨ (ctxGet s s.g.ctx).trapvec = 0) :
    ∃ fs, takeTrap x s =
        halt (withFaults fs (poisonBad x s)) (if s.w.trap.on then s.w.trap.cause.toNat else x.cause) ∧
      (x.entry = none → fs = s.w.keys.faults) := by
  rcases takeTrap_cases x s with ⟨hlane, _⟩ | ⟨_, hon, ht⟩ | ⟨_, hon, _, ht⟩ | ⟨_, hon, hv, _⟩
  · simp [hl] at hlane
  · exact ⟨s.w.keys.faults, by rw [ht, if_pos hon]; rfl, fun _ => rfl⟩
  · exact ⟨dropEntry s.w.keys.faults x.entry, by rw [ht, hon]; rfl, fun he => by rw [he]; rfl⟩
  · exact (h.elim (fun e => by simp [hon] at e) (fun e => hv e)).elim

/-- A wave of a group that halts stops, unless it has ended. -/
theorem stopWave_of_running {w : Wave} (he : w.status ≠ .exited) (hh : w.status ≠ .halted) :
    stopWave w = { w with status := .stopped } := by
  unfold stopWave
  split
  · contradiction
  · contradiction
  · rfl

theorem ctxGet_halt_self (s : State) (cause : Nat) :
    ctxGet (halt s cause) s.g.ctx =
      { ctxGet s s.g.ctx with halt := haltLog (ctxGet s s.g.ctx).halt cause s.w.pc s.w.handle } :=
  (Tab.get_put _ _ _ _ _).trans (if_pos rfl)

theorem ctxGet_halt_ne (s : State) (cause : Nat) {k : Nat} (h : k ≠ s.g.ctx) : ctxGet (halt s cause) k = ctxGet s k :=
  (Tab.get_put _ _ _ _ _).trans (if_neg h)

theorem halt_g_peers (s : State) (cause : Nat) : (halt s cause).g.peers = s.g.peers.map stopWave := rfl

/-! ## Double faults in a handler (04 R121) -/

/-- t is s with its wave halted: no byte of memory, no scalar register and no pc has changed. -/
def HaltedFrom (s t : State) : Prop := t.w.status = .halted ∧ t.mem = s.mem ∧ t.w.sreg = s.w.sreg ∧ t.w.pc = s.w.pc

section InHandler

variable {s : State}

theorem haltedFrom_of_trap_in_handler (hl : s.lane = none) (hon : s.w.trap.on = true) (cause detail : Nat) :
    HaltedFrom s (takeTrap (trapOf cause detail) s) := by
  obtain ⟨fs, ht, -⟩ := takeTrap_of_doubleFault (trapOf cause detail) hl (.inl hon)
  rw [ht]
  exact ⟨rfl, rfl, rfl, rfl⟩

theorem em_ne_zero_of_someNonHelper (h : someNonHelper s = true) : em s ≠ 0 := fun he => by
  simp [someNonHelper_of_em_zero s he] at h

theorem onceForWave_error (h : someNonHelper s = true) (t : Trap) : onceForWave s (.error t) = .next (takeTrap t s) := by
  rw [onceForWave, if_pos h]; rfl

theorem exec_exit_in_handler (hl : s.lane = none) (hon : s.w.trap.on = true) :
    exec .exit s = .next (takeTrap (trapOf causeIllop 0) s) := by
  simp [exec, execExit, hl, hon, commit]

theorem exec_yield_in_handler (hm : someNonHelper s = true) (hon : s.w.trap.on = true) :
    exec .yield s = .next (takeTrap (trapOf causeIllop 0) s) := by
  simp only [exec, execYield, hon, if_true]
  exact run_error s _ (em_ne_zero_of_someNonHelper hm)

theorem exec_gbar_in_handler (hon : s.w.trap.on = true) (n : BitVec 2) (k : BitVec 4) :
    exec (.gbar n k) s = .next (takeTrap (trapOf causeIllop 0) s) := if_pos hon

theorem exec_gbarPhase_in_handler (hon : s.w.trap.on = true) (k : BitVec 4) :
    exec (.gbarPhase k) s = .next (takeTrap (trapOf causeIllop 0) s) := if_pos hon

/-- The check that an instruction is not in a handler fails there. -/
theorem outsideCheck_error_in_handler (hon : s.w.trap.on = true) (t : Trap) : check (!s.w.trap.on) t = .error t := by
  simp [check, hon]

theorem exec_bwait_in_handler (hm : someNonHelper s = true) (hon : s.w.trap.on = true) (a b : Src) :
    exec (.bwait a b) s = .next (takeTrap (trapOf causeIllop 0) s) := by
  simp only [exec, execBwait, outsideCheck_error_in_handler hon]
  exact onceForWave_error hm _

theorem exec_yieldB_in_handler (hm : someNonHelper s = true) (hon : s.w.trap.on = true) (d : BitVec 6) (p : Bool) (a b : Src) :
    exec (.yieldB d p a b) s = .next (takeTrap (trapOf causeIllop 0) s) := by
  simp only [exec, execYieldB, outsideCheck_error_in_handler hon]
  exact onceForWave_error hm _

/-- TRET with a lane in the mask: the checks in their order. -/
theorem exec_tret_of_lanes (he : em s ≠ 0) :
    exec .tret s = if !s.w.trap.on then .next (takeTrap (trapOf causeIllop 1) s) else
      if activeMask s = 0 then .next (advance s) else
      if s.w.trap.stack ≠ [] then .next (takeTrap (trapOf causeStackovf 0) s) else .next (trapReturn s) := if_neg he

theorem exec_tret_with_entry (hm : someNonHelper s = true) (hon : s.w.trap.on = true) (ha : activeMask s ≠ 0)
    (hst : s.w.trap.stack ≠ []) : exec .tret s = .next (takeTrap (trapOf causeStackovf 0) s) := by
  rw [exec_tret_of_lanes (em_ne_zero_of_someNonHelper hm), if_neg (by simp [hon]), if_neg ha, if_pos hst]

/-- A claim that the wave may hold passes the check of its count (05 R147). -/
theorem checkCount_claim {vector : Bool} {n : Nat} (h : heldUnits s.w vector + n ≤ 16) :
    checkCount s vector true n = .ok () := by
  have hn : n ≤ 16 := by omega
  simp [checkCount, check, h, hn]

theorem claimUnits_in_handler (hm : someNonHelper s = true) (hon : s.w.trap.on = true) {vector : Bool} {n : Nat}
    (h : heldUnits s.w vector + n ≤ 16) : claimUnits vector n s = .next (takeTrap (trapOf causeIllop 0) s) := by
  unfold claimUnits
  rw [checkCount_claim h, hm, outsideCheck_error_in_handler hon]
  rfl

end InHandler

/-- Settles O20: a trap in a handler, or without one, is a halt, whose frame is read off halt; each instruction named is shown to take
such a trap. -/
theorem doubleFaultsHalt : Obligations.DoubleFaultsHalt := by
  unfold Obligations.DoubleFaultsHalt
  refine ⟨fun s x hl hd => ?_, fun s n k d p a b c i hl hon hm hi => ?_⟩
  · obtain ⟨fs, ht, hfs⟩ := takeTrap_of_doubleFault x hl hd
    simp only [ht]
    refine ⟨rfl, hfs, fun n hn => sectorDev_poisonBad_of_notMem x s hn, fun n hn => locDev_poisonBad_of_notMem x s hn,
      fun k hk => ctxGet_halt_ne (withFaults fs (poisonBad x s)) _ hk, ?_, ?_, fun k w hk he hh => ?_⟩
    · refine (ctxGet_halt_self (withFaults fs (poisonBad x s)) _).trans ?_
      rw [haltLog, BitVec.setWidth_eq_extractLsb' (by decide)]
      rfl
    · rw [halt_g_peers, List.length_map]; rfl
    · have hp : (withFaults fs (poisonBad x s)).g.peers[k]? = some w := hk
      rw [halt_g_peers, List.getElem?_map, hp, ← stopWave_of_running he hh]; rfl
  · suffices h : ∃ cause detail, exec i s = .next (takeTrap (trapOf cause detail) s) by
      obtain ⟨cause, detail, h⟩ := h
      exact ⟨_, h, haltedFrom_of_trap_in_handler hl hon cause detail⟩
    rcases hi with hi | ⟨rfl, ha, hst⟩ | ⟨rfl, hc⟩ | ⟨rfl, hc⟩
    · simp only [List.mem_cons, List.not_mem_nil, or_false] at hi
      rcases hi with rfl | rfl | rfl | rfl | rfl | rfl
      · exact ⟨_, _, exec_exit_in_handler hl hon⟩
      · exact ⟨_, _, exec_yield_in_handler hm hon⟩
      · exact ⟨_, _, exec_gbar_in_handler hon n k⟩
      · exact ⟨_, _, exec_gbarPhase_in_handler hon k⟩
      · exact ⟨_, _, exec_bwait_in_handler hm hon a b⟩
      · exact ⟨_, _, exec_yieldB_in_handler hm hon d p a b⟩
    · exact ⟨_, _, exec_tret_with_entry hm hon ha hst⟩
    · exact ⟨_, _, claimUnits_in_handler (vector := true) hm hon hc⟩
    · exact ⟨_, _, claimUnits_in_handler (vector := false) hm hon hc⟩

end Sys2Proof.Machine
end

section
/-!
The trap instructions and the return from a trap: the masks that they set, and what they leave unchanged (04 R116-R120; 05 R127, R130;
16 R428, R429).
-/

namespace Sys2Proof.Machine

open Sys2Proof

/-! ## Masks (05 R127, R130) -/

theorem maskOfWords_maskWord (m : LaneMask) : maskOfWords (maskWord m 0) (maskWord m 1) (maskWord m 2) = m := by
  refine BitVec.eq_of_getLsbD_eq fun i hi => ?_
  refine (BitVec.getLsbD_append (x := maskWord m 2 ++ maskWord m 1) (y := maskWord m 0) (i := i)).trans ?_
  simp only [BitVec.getLsbD_append, maskWord, BitVec.getLsbD_extractLsb']
  by_cases h0 : i < 32
  · simp [h0]
  · by_cases h1 : i - 32 < 32
    · have e : 32 * 1 + (i - 32) = i := by omega
      simp [h0, h1, e]
    · have h2 : i - 32 - 32 < 32 := by omega
      have e : 32 * 2 + (i - 32 - 32) = i := by omega
      simp [h0, h1, h2, e]

theorem maskWord_and_not (m e : LaneMask) {i : Nat} (hi : i < 3) :
    maskWord (m &&& ~~~e) i = maskWord m i &&& ~~~(maskWord e i) := by
  refine BitVec.eq_of_getLsbD_eq fun j hj => ?_
  have hij : 32 * i + j < 96 := by omega
  simp [maskWord, hj, hij]

@[simp] theorem ejectedMask_sset (s : State) (n : Nat) (v : Word) : ejectedMask (sset s n v).w = ejectedMask s.w := by
  simp [ejectedMask]

/-- em0-em2 as set, less the lanes that are ejected. -/
theorem em_setEm (s : State) (m : LaneMask) : em (setEm s m) = m &&& ~~~(ejectedMask s.w) := by
  rw [← maskOfWords_maskWord (m &&& ~~~(ejectedMask s.w))]
  simp [em, setEm, sget_sset, maskWord_and_not]

theorem sget_setEm_of_outside (s : State) (m : LaneMask) {n : Nat} (h : n < 60 ∨ 62 < n) : sget (setEm s m) n = sget s n := by
  simp only [setEm]
  rw [sget_sset_ne _ _ (by omega), sget_sset_ne _ _ (by omega), sget_sset_ne _ _ (by omega)]

/-- Everything that a write of em0-em2 can do: only sreg changes. -/
theorem setEm_frame (s : State) (m : LaneMask) : setEm s m = { s with w := { s.w with sreg := (setEm s m).w.sreg } } := by
  simp only [setEm]
  rw [sset_frame, sset_frame (sset s _ _), sset_frame s]

/-- What sets em0-em2, wherever it then goes, sets them as the statements say. -/
theorem masksTo_goto_setEm {s u : State} {m : LaneMask} {pc : Pc} (hreg : u.w.sreg = s.w.sreg)
    (hej : ejectedMask u.w = ejectedMask s.w) : Claims.masksTo s (goto (setEm u m) pc) m := by
  have hs (n : Nat) : sget u n = sget s n := by simp only [sget, hreg]
  refine ⟨?_, fun n hn => (sget_setEm_of_outside u m hn).trans (hs n)⟩
  rw [← hej, ← em_setEm]
  rfl

/-! ## TRAP and BKPT (16 R428) -/

/-- The trap that a trap instruction takes. -/
def instrTrap (cause : Nat) (imm : BitVec 16) (s : State) : Trap :=
  { cause := cause, detail := imm.toNat, lanes := some (nonHelperMask s), after := true }

theorem trapInstr_of_none {s : State} (h : nonHelperMask s = 0) (cause : Nat) (imm : BitVec 16) :
    trapInstr cause imm s = .next (Claims.goesOn s) := if_pos h

theorem trapInstr_of_some {s : State} (h : nonHelperMask s ≠ 0) (cause : Nat) (imm : BitVec 16) :
    trapInstr cause imm s = .next (takeTrap (instrTrap cause imm s) s) := if_neg h

/-- Outside a handler, with one to go to, a trap that met no mismatch and no walk enters it. -/
theorem takeTrap_of_entry {s : State} {x : Trap} (hl : s.lane = none) (hon : s.w.trap.on = false)
    (hv : (ctxGet s s.g.ctx).trapvec ≠ 0) (hb : x.bad = []) (hbl : x.badLoc = []) (hw : x.walks = []) :
    takeTrap x s = trapEntry s x := by
  rcases takeTrap_cases x s with ⟨h, _⟩ | ⟨_, h, _⟩ | ⟨_, _, h, _⟩ | ⟨_, _, _, ht⟩
  · simp [hl] at h
  · simp [hon] at h
  · exact absurd h hv
  · rw [ht, poisonBad_of_clean s hb hbl hw]

/-- Trap entry leaves all of the state but the wave alone, and of the wave all but what is named here. -/
theorem trapEntry_frame (s : State) (x : Trap) :
    trapEntry s x = { s with w := { s.w with
      sreg := (trapEntry s x).w.sreg, trap := (trapEntry s x).w.trap, mode := (trapEntry s x).w.mode
      status := .ready, rejoinSoft := false, pc := (trapEntry s x).w.pc, clause := none
      keys := { s.w.keys with faults := dropEntry s.w.keys.faults x.entry } } } := by
  unfold trapEntry
  simp only
  rw [setEm_frame]
  rfl

theorem masksTo_trapEntry (s : State) (x : Trap) : Claims.masksTo s (trapEntry s x) (concerned s (x.lanes.getD (em s))) :=
  masksTo_goto_setEm rfl rfl

/-! ## TRET (04 R120; 16 R429) -/

/-- Lanes that are free again are ejected still. -/
theorem ejectedMask_map_stuck (es : List EjLane) (f : EjLane → Bool) (w v : Wave) (hw : w.ejected = es)
    (hv : v.ejected = es.map (fun e => { e with stuck := f e })) : ejectedMask v = ejectedMask w := by
  rw [ejectedMask, ejectedMask, hw, hv, List.foldl_map]

theorem masksTo_trapReturn (s : State) : Claims.masksTo s (trapReturn s) s.w.trap.em :=
  masksTo_goto_setEm rfl (ejectedMask_map_stuck s.w.ejected _ _ _ rfl rfl)

theorem trapReturn_frame {s : State} (hst : s.w.trap.stack = []) :
    trapReturn s = { s with w := { s.w with
      sreg := (trapReturn s).w.sreg, mode := s.w.trap.mode, pc := s.w.trap.pc, clause := none
      trap := { s.w.trap with on := false, tv := [] }
      ejected := s.w.ejected.map (fun e => { e with stuck := e.stuck && s.w.stackDue.isSome }) } } := by
  unfold trapReturn
  simp only
  rw [setEm_frame, ← hst]
  rfl

theorem exec_tret_in_handler {s : State} (he : em s ≠ 0) (ha : activeMask s ≠ 0) (hon : s.w.trap.on = true)
    (hst : s.w.trap.stack = []) : exec .tret s = .next (trapReturn s) := by
  rw [exec_tret_of_lanes he, if_neg (by simp [hon]), if_neg ha, if_neg (not_not_intro hst)]

theorem exec_tret_outside {s : State} (he : em s ≠ 0) (hon : s.w.trap.on = false) :
    exec .tret s = .next (takeTrap (trapOf causeIllop 1) s) := by
  rw [exec_tret_of_lanes he, if_pos (by simp [hon])]

/-- Settles O19: the entry that a trap instruction brings is read off trapEntry field by field, the return off trapReturn. -/
theorem trapInstructionsAndReturn : Obligations.TrapInstructionsAndReturn := by
  unfold Obligations.TrapInstructionsAndReturn
  refine ⟨fun s imm => ⟨fun h => ⟨trapInstr_of_none h _ _, trapInstr_of_none h _ _⟩, fun h hl hon hv i hi => ?_⟩, fun s =>
    ⟨fun he ha hon hst => ⟨_, exec_tret_in_handler he ha hon hst, trapReturn_frame hst, masksTo_trapReturn s⟩,
      exec_tret_outside⟩⟩
  obtain ⟨cause, hexec, hcause⟩ : ∃ cause, exec i.1 s = trapInstr cause imm s ∧ i.2 = BitVec.ofNat 32 cause := by
    simp only [List.mem_cons, List.not_mem_nil, or_false] at hi
    rcases hi with rfl | rfl
    · exact ⟨causeTrap, rfl, rfl⟩
    · exact ⟨causeBkpt, rfl, rfl⟩
  have htake : takeTrap (instrTrap cause imm s) s = trapEntry s (instrTrap cause imm s) :=
    takeTrap_of_entry hl hon hv rfl rfl rfl
  have hframe := trapEntry_frame s (instrTrap cause imm s)
  have hmask := masksTo_trapEntry s (instrTrap cause imm s)
  rw [instrTrap, Option.getD_some, concerned, if_neg h, ← instrTrap] at hmask
  obtain ⟨hton, htcause, htdetail, htpc, htaddr, htem, htmode, hmode, -, -, hpc⟩ := trapEntry_w s (instrTrap cause imm s)
  refine ⟨_, hexec.trans ((trapInstr_of_some h cause imm).trans (congrArg _ htake)), hton, htcause.trans hcause.symm,
    htdetail.trans (BitVec.ofNat_toNat 32 imm), htaddr, htpc, htem, htmode, hpc, hmode, hmask, ?_⟩
  rw [hframe]
  exact ⟨rfl, rfl, rfl, rfl, rfl, rfl, rfl, rfl⟩

end Sys2Proof.Machine
end

section
/-!
Group barriers and the phase end: what an arrival does to the counts and generations (04 R91; 06 Table 6-7; 15 R391-R393).
-/

namespace Sys2Proof.Machine

open Sys2Proof

/-! ## The consume of a group barrier (10 R248; 06 Table 6-7) -/

/-- The captured scope is no reserved code. -/
theorem checkScope_of_le {s : State} (h : scope s ≤ 5) : checkScope s = .ok () := by
  simp [checkScope, check, h]

/-- A ready wave is not changed by being woken. -/
theorem wake_of_ready {s : State} (h : s.w.status = .ready) : wake s = s := by
  unfold wake
  rw [← h]

/-- With its consume met a ready wave does not wait. -/
theorem waitKeys_of_consumeMet {s : State} {k sc : Nat} (hr : s.w.status = .ready) (h : Claims.consumeMet s k sc)
    (go : State → Res) : waitKeys s (some k) sc go = go s := by
  obtain ⟨hentry, hdone⟩ := h
  have hset : waitSet s (some k) sc = (membersOf s s.w k, sc) := by simp [waitSet, hr]
  have hall : allPerformed s s.w sc (membersOf s s.w k) = true := List.all_eq_true.2 hdone
  simp only [waitKeys, hset, hentry, hall, if_true, wake_of_ready hr]

/-- The consume of a group barrier is met, or empty where the mask is. -/
theorem gbarConsume_of_met {s : State} {k : Nat} (hr : s.w.status = .ready)
    (h : em s = 0 ∨ Claims.consumeMet s k (max (scope s) 1)) (go : State → Res) : gbarConsume s k go = go s := by
  unfold gbarConsume
  split
  · rfl
  · exact waitKeys_of_consumeMet hr (h.resolve_left ‹_›) go

/-! ## Arrivals (15 R392) -/

/-- The group with one arrival more at barrier n. -/
def countGbar (n : Nat) (s : State) : State :=
  { s with g := { s.g with gbarArr := Tab.put 0 s.g.gbarArr n (Tab.get 0 s.g.gbarArr n + 1) } }

theorem gbarArr_countGbar (s : State) (n : Nat) : Tab.get 0 (countGbar n s).g.gbarArr n = Tab.get 0 s.g.gbarArr n + 1 := by
  simp [countGbar]

/-- The last arrival of a generation ends it, and the wave goes on. -/
theorem arriveGbar_last {s : State} {n : Nat} (h : unexited s ≤ Tab.get 0 s.g.gbarArr n + 1) :
    arriveGbar n s = { s with
      w := { s.w with pc := s.w.pc + 4, status := .ready }
      g := { s.g with
        gbarArr := Tab.put 0 (countGbar n s).g.gbarArr n 0
        gbarGen := Tab.put 0 s.g.gbarGen n (Tab.get 0 s.g.gbarGen n + 1) } } := by
  have hs : settleBarrier (countGbar n s) n = { s with g := { s.g with
      gbarArr := Tab.put 0 (countGbar n s).g.gbarArr n 0
      gbarGen := Tab.put 0 s.g.gbarGen n (Tab.get 0 s.g.gbarGen n + 1) } } :=
    if_pos (by rw [gbarArr_countGbar]; exact ⟨Nat.succ_ne_zero _, h⟩)
  have hg : Tab.get 0 (settleBarrier (countGbar n s) n).g.gbarGen n ≠ Tab.get 0 s.g.gbarGen n := by simp [hs]
  exact (if_neg hg).trans (congrArg (fun t => advance (wake t)) hs)

/-- An earlier arrival waits for the generation's end. -/
theorem arriveGbar_early {s : State} {n : Nat} (h : Tab.get 0 s.g.gbarArr n + 1 < unexited s) :
    arriveGbar n s = hold (countGbar n s) (.gbar n (Tab.get 0 s.g.gbarGen n)) := by
  have hs : settleBarrier (countGbar n s) n = countGbar n s :=
    if_neg (by rw [gbarArr_countGbar]; exact fun hc => absurd hc.2 (Nat.not_le.2 h))
  have hg : Tab.get 0 (settleBarrier (countGbar n s) n).g.gbarGen n = Tab.get 0 s.g.gbarGen n := by rw [hs]; rfl
  exact (if_pos hg).trans (congrArg (fun t => hold t (.gbar n (Tab.get 0 s.g.gbarGen n))) hs)

section Arrival

variable {s : State} {k : BitVec 4} (hon : s.w.trap.on = false) (hsc : scope s ≤ 5) (hr : s.w.status = .ready)

include hon hsc hr

/-- GBAR of a ready wave outside a handler, its consume met, is an arrival. -/
theorem exec_gbar_of_met (h : em s = 0 ∨ Claims.consumeMet s k.toNat (max (scope s) 1)) (n : BitVec 2) :
    exec (.gbar n k) s = .next (arriveGbar n.toNat s) := by
  simp only [exec, execGbar, hon, Bool.false_eq_true, if_false, hr, checkScope_of_le hsc, gbarConsume_of_met hr h]
  rfl

/-- GBAR.PHASE of a wave that has not diverged waits for the phase end at the next word. -/
theorem exec_gbarPhase_of_met (h : em s = 0 ∨ Claims.consumeMet s k.toNat (max (scope s) 1)) (hd : diverged s.w = false) :
    exec (.gbarPhase k) s = .next (hold (advance s) .phaseEnd) := by
  simp only [exec, execGbarPhase, hon, Bool.false_eq_true, if_false, checkScope_of_le hsc, hd, gbarConsume_of_met hr h]
  rfl

omit hr

/-- Diverged it raises PHASEDIV (04 R91). -/
theorem exec_gbarPhase_diverged (hd : diverged s.w = true) :
    exec (.gbarPhase k) s = .next (takeTrap (trapOf causePhasediv 0) s) := by
  simp only [exec, execGbarPhase, hon, Bool.false_eq_true, if_false, checkScope_of_le hsc, hd]
  rfl

end Arrival

/-- Settles O25: the checks and the consume pass, and what is left is one arrival, last or early. -/
theorem groupBarriersGather : Obligations.GroupBarriersGather := by
  unfold Obligations.GroupBarriersGather
  intro s n k hon hsc hr hmet arrived
  refine ⟨fun hlast => ⟨_, exec_gbar_of_met hon hsc hr hmet n, ?_⟩, fun hearly => ⟨_, exec_gbar_of_met hon hsc hr hmet n, ?_⟩,
    fun hst hb hej => exec_gbarPhase_of_met hon hsc hr hmet (by simp [diverged, waveDone, hst, hb, hej]),
    fun hst => exec_gbarPhase_diverged hon hsc (by simp [diverged, waveDone, hst])⟩
  · rw [arriveGbar_last hlast]
    exact ⟨rfl, by simp, by simp, fun m hm => by simp [countGbar, hm]⟩
  · rw [arriveGbar_early hearly]
    exact ⟨rfl, by simp [countGbar, arrived], fun m hm => by simp [countGbar, hm]⟩

end Sys2Proof.Machine
end

section
/-!
The sets of a slot: which wave a swap brings in and takes out, and who gets a free place (04 R103-R106).
-/

namespace Sys2Proof.Machine

open Sys2Proof

/-! ## The sets of a slot after a change -/

/-- The sets name their own slot. -/
theorem slotGet_key (s : State) (die core slot : Nat) :
    (slotGet s die core slot).die = die ∧ (slotGet s die core slot).core = core ∧ (slotGet s die core slot).slot = slot := by
  unfold slotGet
  cases hf : s.slots.find? (fun x => x.die == die && x.core == core && x.slot == slot) with
  | none => exact ⟨rfl, rfl, rfl⟩
  | some x => simpa [and_assoc] using List.find?_some hf

/-- Sets that hold a wave are those of their slot once they are put. -/
theorem slotGet_slotPut {x : SlotSet} (s : State) (h : ¬(x.active = [] ∧ x.pending = [])) :
    slotGet (slotPut x s) x.die x.core x.slot = x := by
  simp [slotGet, slotPut, h]

/-- s goes to t by a change of the sets of one slot, to the active waves a and the pending waves p. -/
def SetsSlot (s t : State) (die core slot : Nat) (a p : List (BitVec 64)) : Prop :=
  t = { s with slots := t.slots } ∧ (slotGet t die core slot).active = a ∧ (slotGet t die core slot).pending = p

theorem setsSlot_slotPut {x : SlotSet} {s : State} {die core slot : Nat} {a p : List (BitVec 64)}
    (hkey : x.die = die ∧ x.core = core ∧ x.slot = slot) (ha : x.active = a) (hp : x.pending = p) (hne : a ≠ []) :
    SetsSlot s (slotPut x s) die core slot a p := by
  obtain ⟨rfl, rfl, rfl⟩ := hkey
  subst ha hp
  rw [SetsSlot, slotGet_slotPut s (fun h => hne h.1)]
  exact ⟨rfl, rfl, rfl⟩

section Sets

variable {s : State} {x : SlotSet} {a p : BitVec 64}

/-- A swap of an active wave with a pending one: each enters the other set last. -/
theorem swapWaves_sets (hdisj : ∀ h ∈ x.active, h ∉ x.pending) (ha : a ∈ x.active) (hp : p ∈ x.pending) :
    (swapWaves x a p).active = x.active.erase a ++ [p] ∧ (swapWaves x a p).pending = x.pending.erase p ++ [a] := by
  have hpa : p ∉ x.active.erase a := fun h => hdisj p (List.mem_of_mem_erase h) hp
  have hap : a ∉ x.pending := hdisj a ha
  simp [swapWaves, SlotSet.without, SlotSet.enterActive, List.erase_of_not_mem hpa, List.erase_of_not_mem hap]

/-- A pending wave that takes a free place. -/
theorem fill_sets (hdisj : ∀ h ∈ x.active, h ∉ x.pending) (hp : p ∈ x.pending) :
    ((x.without p).enterActive p).active = x.active ++ [p] ∧
      ((x.without p).enterActive p).pending = x.pending.erase p := by
  have hpa : p ∉ x.active := fun h => hdisj p h hp
  simp [SlotSet.without, SlotSet.enterActive, List.erase_of_not_mem hpa]

/-- The pending wave that has been ready longest: the first that is ready among those noted as ready, and then by entry (04 R106). -/
theorem nowReady_head (s : State) (x : SlotSet) :
    (nowReady s x).head? = (x.ready ++ x.pending).find? (fun h => x.pending.contains h && readyWave s h) := by
  rw [List.find?_append, ← List.head?_filter]
  cases hw : x.ready.filter (fun h => x.pending.contains h && readyWave s h) with
  | cons h hs => simp only [nowReady, hw, List.cons_append, List.head?_cons, Option.some_or]
  | nil =>
    simp only [nowReady, hw, List.nil_append, List.contains_nil, Bool.not_false, Bool.true_and, List.head?_nil, Option.none_or]
    rw [← List.head?_filter]
    exact congrArg List.head? (List.filter_congr fun h hh => by
      rw [List.contains_iff_mem.2 hh, Bool.true_and])

end Sets

/-! ## The events of a slot (04 R105, R106) -/

section Events

variable {s : State} {die core slot : Nat} {a p : BitVec 64}

/-- The sets without the waves that have left them still name their slot. -/
theorem slotNow_key (s : State) (die core slot : Nat) :
    (slotNow s die core slot).die = die ∧ (slotNow s die core slot).core = core ∧ (slotNow s die core slot).slot = slot :=
  slotGet_key s die core slot

/-- A swap changes the sets of its slot alone. -/
theorem setsSlot_swapWaves (hdisj : ∀ h ∈ (slotNow s die core slot).active, h ∉ (slotNow s die core slot).pending)
    (ha : a ∈ (slotNow s die core slot).active) (hp : p ∈ (slotNow s die core slot).pending) :
    SetsSlot s (slotPut (swapWaves (slotNow s die core slot) a p) s) die core slot
      ((slotNow s die core slot).active.erase a ++ [p]) ((slotNow s die core slot).pending.erase p ++ [a]) := by
  obtain ⟨hact, hpend⟩ := swapWaves_sets hdisj ha hp
  exact setsSlot_slotPut (slotNow_key s die core slot) hact hpend (by simp)

theorem exec_swapEligible_of_found (hfill : fillDue s (slotNow s die core slot) = false)
    (ha : (slotNow s die core slot).active.find? (eligible s) = some a)
    (hp : (slotNow s die core slot).pending.find? (readyWave s) = some p) :
    exec (.swapEligible die core slot) s = .next (slotPut (swapWaves (slotNow s die core slot) a p) s) := by
  simp [exec, execSwapEligible, ha, hp, hfill]

theorem exec_forcedSwap_of_found (hfill : fillDue s (slotNow s die core slot) = false)
    (ha : (slotNow s die core slot).active.head? = some a) (hp : (nowReady s (slotNow s die core slot)).head? = some p) :
    exec (.forcedSwap die core slot) s = .next (slotPut (swapWaves (slotNow s die core slot) a p) s) := by
  simp [exec, execForcedSwap, ha, hp, hfill]

theorem exec_activeSetFill_of_found {ps : List (BitVec 64)} (hp : (slotNow s die core slot).pending = p :: ps)
    (hheld : rejoinHeld s p = false) (hroom : (slotNow s die core slot).active.length < 8) :
    exec (.activeSetFill die core slot) s =
      .next (slotPut (((slotNow s die core slot).without p).enterActive p) s) := by
  simp [exec, execActiveSetFill, hp, hheld, hroom]

/-- SWAP_ELIGIBLE exchanges an active wave that waits with the ready pending wave that entered earliest. -/
theorem swapEligible_swaps (hdisj : ∀ h ∈ (slotNow s die core slot).active, h ∉ (slotNow s die core slot).pending)
    (hfill : fillDue s (slotNow s die core slot) = false) (ha : (slotNow s die core slot).active.find? (eligible s) = some a)
    (hp : (slotNow s die core slot).pending.find? (readyWave s) = some p) :
    Claims.goes (.swapEligible die core slot) s (fun t => SetsSlot s t die core slot
      ((slotNow s die core slot).active.erase a ++ [p]) ((slotNow s die core slot).pending.erase p ++ [a])) :=
  ⟨_, exec_swapEligible_of_found hfill ha hp, setsSlot_swapWaves hdisj (List.mem_of_find?_eq_some ha) (List.mem_of_find?_eq_some hp)⟩

/-- FORCED_SWAP exchanges the active wave that entered earliest with the pending wave that has been ready longest. -/
theorem forcedSwap_swaps {as : List (BitVec 64)}
    (hdisj : ∀ h ∈ (slotNow s die core slot).active, h ∉ (slotNow s die core slot).pending)
    (hfill : fillDue s (slotNow s die core slot) = false) (ha : (slotNow s die core slot).active = a :: as)
    (hp : ((slotNow s die core slot).ready ++ (slotNow s die core slot).pending).find?
      (fun h => (slotNow s die core slot).pending.contains h && readyWave s h) = some p) :
    Claims.goes (.forcedSwap die core slot) s (fun t => SetsSlot s t die core slot
      (as ++ [p]) ((slotNow s die core slot).pending.erase p ++ [a])) := by
  have hmem : p ∈ (slotNow s die core slot).pending := by
    have hsome := List.find?_some hp
    simp only [Bool.and_eq_true, List.contains_iff_mem] at hsome
    exact hsome.1
  have hswap := setsSlot_swapWaves hdisj (a := a) (by simp [ha]) hmem
  rw [ha, List.erase_cons_head] at hswap
  exact ⟨_, exec_forcedSwap_of_found hfill (by rw [ha]; rfl) ((nowReady_head s _).trans hp), hswap⟩

/-- ACTIVE_SET_FILL gives a free place to the pending wave that entered earliest. -/
theorem activeSetFill_fills {ps : List (BitVec 64)}
    (hdisj : ∀ h ∈ (slotNow s die core slot).active, h ∉ (slotNow s die core slot).pending)
    (hp : (slotNow s die core slot).pending = p :: ps) (hheld : rejoinHeld s p = false)
    (hroom : (slotNow s die core slot).active.length < 8) :
    Claims.goes (.activeSetFill die core slot) s (fun t => SetsSlot s t die core slot
      ((slotNow s die core slot).active ++ [p]) ps) := by
  obtain ⟨hact, hpend⟩ := fill_sets hdisj (p := p) (by simp [hp])
  rw [hp, List.erase_cons_head] at hpend
  exact ⟨_, exec_activeSetFill_of_found hp hheld hroom, setsSlot_slotPut (slotNow_key s die core slot) hact hpend (by simp)⟩

end Events

end Sys2Proof.Machine
end

section
/-!
Giving and claiming units: what passes between a wave and its pool, the claim that is met, and the one that locks (05 R145-R149).
-/

namespace Sys2Proof.Machine

open Sys2Proof

/-! ## Pools and held units (05 R145) -/

theorem poolGet_poolPut_self (g : Group) (vector : Bool) (slot n : Nat) : poolGet (poolPut g vector slot n) vector slot = n := by
  cases vector <;> simp [poolGet, poolPut]

theorem locByte_poolPut (g : Group) (vector : Bool) (slot n a : Nat) : locByte (poolPut g vector slot n) a = locByte g a := by
  cases vector <;> rfl

theorem heldUnits_setUnits (w : Wave) (vector : Bool) (n lo : Nat) : heldUnits (setUnits w vector n lo) vector = n := by
  cases vector <;> rfl

/-- Of a wave only what it holds, and the contents of what it loses, change with its units. -/
theorem setUnits_frame (w : Wave) (vector : Bool) (n lo : Nat) :
    setUnits w vector n lo = { w with
      vblocks := (setUnits w vector n lo).vblocks, vreg := (setUnits w vector n lo).vreg
      tiles := (setUnits w vector n lo).tiles, tile := (setUnits w vector n lo).tile
      side := (setUnits w vector n lo).side } := by
  cases vector <;> rfl

/-! ## Gives and claims that are met at once (05 R145-R147) -/

/-- With no lane ejected there is nothing to recall. -/
theorem recallFrom_of_none {s : State} (h : s.w.ejected = []) (p : EjLane → Bool) (d : Nat) : recallFrom p d s = .ok s := by
  induction d with
  | zero => rfl
  | succ d ih => simp [recallFrom, h, ih]

section AtOnce

variable {s : State} {vector : Bool} {n : Nat}

/-- A give that the wave holds passes the check of its count. -/
theorem checkCount_give (hn : n ≤ 16) (h : n ≤ heldUnits s.w vector) : checkCount s vector false n = .ok () := by
  simp [checkCount, check, hn, h]

/-- The wave goes on, and no byte of memory changes. -/
def goesOnInMemory (s t : State) : Prop := t.w.pc = s.w.pc + 4 ∧ t.w.status = s.w.status ∧ Claims.keepsMemory s t

/-- A wave whose units, and whose slot's pool, alone are changed goes on. -/
theorem goesOnInMemory_of_units (s : State) (vector : Bool) (u lo m : Nat) :
    goesOnInMemory s (advance { s with w := setUnits s.w vector u lo, g := poolPut s.g vector (slotOf s.w.idx) m }) := by
  refine ⟨?_, ?_, fun _ => rfl, fun a => locByte_poolPut s.g vector _ m a⟩
  · rw [advance_w_pc, setUnits_frame]
  · rw [advance_w_status, setUnits_frame]

theorem heldUnits_advance (s : State) (vector : Bool) : heldUnits (advance s).w vector = heldUnits s.w vector := by
  cases vector <;> rfl

/-- A give that passes the check of its count: lanes that stand in its way are recalled first. -/
theorem giveUnits_checked (hn : n ≤ 16) (h : n ≤ heldUnits s.w vector) :
    giveUnits vector n s = commit s (
      if !someNonHelper s || n == 0 then .ok (advance s)
      else (if vector then recallWhere (fun e => decide (s.w.vblocks < e.live + n)) s else .ok s) >>= fun t =>
        .ok (advance (give vector n t))) := by
  unfold giveUnits
  rw [checkCount_give hn h]
  cases vector <;> rfl

/-- A give of no unit moves nothing. -/
theorem giveUnits_zero (s : State) (vector : Bool) : giveUnits vector 0 s = .next (advance s) := by
  have hskip : (!someNonHelper s || (0 : Nat) == 0) = true := Bool.or_true _
  rw [giveUnits_checked (Nat.zero_le 16) (Nat.zero_le _), if_pos hskip]
  rfl

theorem giveUnits_of_held (hm : someNonHelper s = true) (hej : s.w.ejected = []) (hn : n ≤ 16) (h0 : n ≠ 0)
    (h : n ≤ heldUnits s.w vector) : giveUnits vector n s = .next (advance (give vector n s)) := by
  have hact : ¬(!someNonHelper s || n == 0) = true := by
    rw [hm, beq_false_of_ne h0]; exact Bool.false_ne_true
  have hrecall (p : EjLane → Bool) : (if vector then recallWhere p s else .ok s) = .ok s := by
    cases vector with
    | false => rfl
    | true => exact recallFrom_of_none hej p _
  rw [giveUnits_checked hn h, if_neg hact, hrecall]
  rfl

/-- The units given pass from the wave to the pool of its slot. -/
theorem giveUnits_moves (hm : someNonHelper s = true) (hej : s.w.ejected = []) (hn : n ≤ 16) (h : n ≤ heldUnits s.w vector) :
    ∃ t, giveUnits vector n s = .next t ∧ goesOnInMemory s t ∧ heldUnits t.w vector + n = heldUnits s.w vector ∧
      poolGet t.g vector (s.w.idx % 4) = poolGet s.g vector (s.w.idx % 4) + n := by
  by_cases h0 : n = 0
  · subst h0
    exact ⟨_, giveUnits_zero s vector, ⟨rfl, rfl, fun _ => rfl, fun _ => rfl⟩, heldUnits_advance s vector, rfl⟩
  · refine ⟨_, giveUnits_of_held hm hej hn h0 h, goesOnInMemory_of_units s vector _ _ _, ?_, poolGet_poolPut_self s.g vector _ _⟩
    rw [heldUnits_advance, give, heldUnits_setUnits, Nat.sub_add_cancel h]

/-- A claim that acts, outside a handler: its check of the count and of the handler pass. -/
theorem claimUnits_acts (hm : someNonHelper s = true) (hon : s.w.trap.on = false) (h : heldUnits s.w vector + n ≤ 16) :
    claimUnits vector n s = commit s (
      if n = 0 then .ok (advance s)
      else if s.g.claims.any (fun c => c.wave == s.w.idx) then .ok (hold s .claim)
      else if (claimsOn s.g vector (slotOf s.w.idx)).isEmpty && decide (n ≤ poolGet s.g vector (slotOf s.w.idx)) then
        .ok (advance { s with
          w := claimed vector n s.w
          g := poolPut s.g vector (slotOf s.w.idx) (poolGet s.g vector (slotOf s.w.idx) - n) })
      else .ok (hold { s with g := { s.g with claims := s.g.claims ++ [{ wave := s.w.idx, vector := vector, n := n }] } } .claim)) := by
  unfold claimUnits
  rw [checkCount_claim h, hm, hon]
  rfl

/-- A claim of no unit moves nothing. -/
theorem claimUnits_zero (hm : someNonHelper s = true) (hon : s.w.trap.on = false) (h : heldUnits s.w vector ≤ 16) :
    claimUnits vector 0 s = .next (advance s) :=
  (claimUnits_acts hm hon h).trans (congrArg (commit s) (if_pos rfl))

theorem claimUnits_of_room (hm : someNonHelper s = true) (hon : s.w.trap.on = false) (hc : s.g.claims = []) (h0 : n ≠ 0)
    (h : heldUnits s.w vector + n ≤ 16) (hp : n ≤ poolGet s.g vector (s.w.idx % 4)) :
    claimUnits vector n s = .next (advance { s with
      w := claimed vector n s.w
      g := poolPut s.g vector (slotOf s.w.idx) (poolGet s.g vector (slotOf s.w.idx) - n) }) := by
  have hnone : ¬s.g.claims.any (fun c => c.wave == s.w.idx) = true := by
    rw [hc]; exact Bool.false_ne_true
  have hroom : ((claimsOn s.g vector (slotOf s.w.idx)).isEmpty && decide (n ≤ poolGet s.g vector (slotOf s.w.idx))) = true := by
    rw [claimsOn, hc]; exact decide_eq_true hp
  rw [claimUnits_acts hm hon h, if_neg h0, if_neg hnone, if_pos hroom]
  rfl

/-- The units claimed pass from the pool of its slot to the wave. -/
theorem claimUnits_moves (hm : someNonHelper s = true) (hon : s.w.trap.on = false) (hc : s.g.claims = [])
    (h : heldUnits s.w vector + n ≤ 16) (hp : n ≤ poolGet s.g vector (s.w.idx % 4)) :
    ∃ t, claimUnits vector n s = .next t ∧ goesOnInMemory s t ∧ heldUnits t.w vector = heldUnits s.w vector + n ∧
      poolGet t.g vector (s.w.idx % 4) + n = poolGet s.g vector (s.w.idx % 4) := by
  by_cases h0 : n = 0
  · subst h0
    exact ⟨_, claimUnits_zero hm hon h, ⟨rfl, rfl, fun _ => rfl, fun _ => rfl⟩, heldUnits_advance s vector, rfl⟩
  · refine ⟨_, claimUnits_of_room hm hon hc h0 h hp, goesOnInMemory_of_units s vector _ _ _, ?_, ?_⟩
    · rw [heldUnits_advance, claimed, heldUnits_setUnits]
    · exact (congrArg (· + n) (poolGet_poolPut_self s.g vector _ _)).trans (Nat.sub_add_cancel hp)

end AtOnce

/-! ## What claimed registers read (05 R146) -/

theorem get_filter_keys {α : Type} (d : α) (p : Nat → Bool) (t : Tab α) (n : Nat) :
    Tab.get d (t.filter (fun e => p e.1)) n = if p n then Tab.get d t n else d := by
  induction t with
  | nil => simp
  | cons e t ih =>
    obtain ⟨k, v⟩ := e
    by_cases hk : k = n
    · subst hk
      by_cases hp : p k = true
      · simp [hp, Tab.get]
      · simp [hp, ih]
    · by_cases hp : p k = true
      · simp [hp, Tab.get, hk, ih]
      · simp [hp, Tab.get, hk, ih]

/-- Registers of the blocks that a wave has claimed read zero; the handler's own registers and all others stay. -/
theorem vget_of_claimed {s t : State} {vector : Bool} {n : Nat} (hv : t.w.vreg = (claimed vector n s.w).vreg)
    (ht : t.w.trap = s.w.trap) (r l : Nat) :
    vget t r l = if vector = true ∧ 8 * s.w.vblocks ≤ r ∧ ¬(s.w.trap.on = true ∧ 112 ≤ r) then 0 else vget s r l := by
  by_cases htv : s.w.trap.on = true ∧ 112 ≤ r
  · simp [vget, vrow, ht, htv]
  · have hrow (u : State) (hu : u.w.trap = s.w.trap) : vrow u r = Tab.get [] u.w.vreg r := by
      simp only [vrow, hu, Bool.and_eq_true, decide_eq_true_eq, if_neg htv]
    cases vector with
    | false => simp [vget, hrow t ht, hrow s rfl, hv, claimed, setUnits]
    | true =>
      simp only [vget, hrow t ht, hrow s rfl, hv, claimed, setUnits, if_true, heldUnits,
        get_filter_keys [] (fun k => decide (k < 8 * s.w.vblocks)), true_and, htv, not_false_eq_true, and_true, decide_eq_true_eq]
      by_cases hr : 8 * s.w.vblocks ≤ r
      · simp [hr, Nat.not_lt.2 hr]
      · simp [hr, Nat.lt_of_not_le hr]

/-! ## A stalled claim (05 R146, R148) -/

section Stalled

variable {s : State} {c : Claim}

/-- The only claim of a group can be met when its pool holds the units. -/
theorem meetable_of_only (hc : s.g.claims = [c]) :
    meetable s.g c = decide (c.n ≤ poolGet s.g c.vector (slotOf c.wave)) := by
  simp [meetable, claimsOn, hc]

/-- The wave of a claim of the group in focus, which is in focus itself, takes the units and goes on; the claim is no more. -/
theorem grantClaim_of_focus (hf : focused s = true) (hp : s.g.peers = []) (hc : s.g.claims = [c])
    (hh : handleOf s.g c.wave = s.w.handle) :
    (grantClaim c s).w = granted c s.w ∧ (grantClaim c s).mem = s.mem ∧
    (grantClaim c s).g =
      { poolPut s.g c.vector (slotOf c.wave) (poolGet s.g c.vector (slotOf c.wave) - c.n) with claims := [] } := by
  have hf' (g : Group) : focused { s with g := g } = true := hf
  refine ⟨?_, rfl, ?_⟩
  · simp only [grantClaim, modWave, mapWaves, hf', if_true, hh]
  · have hpool (n : Nat) : (poolPut s.g c.vector (slotOf c.wave) n).peers = [] := by
      cases c.vector <;> exact hp
    simp [grantClaim, modWave, mapWaves, hc, hpool]

theorem exec_claimGrant_of_room (hc : s.g.claims = [c]) (hroom : c.n ≤ poolGet s.g c.vector (slotOf c.wave)) :
    exec .claimGrant s = .next (grantClaim c s) := by
  have hnext : nextClaim s.g = some c := by simp [nextClaim, hc, meetable_of_only hc, hroom]
  simp [exec, execClaimGrant, claimStep, hnext]

/-- The only wave of a group, stalled in its only claim, locks its slot when the pool holds too little. -/
theorem claimLocked_of_only (hp : s.g.peers = []) (hc : s.g.claims = [c]) (hst : s.w.status = .waiting .claim)
    (hi : s.w.idx = c.wave) (hroom : poolGet s.g c.vector (slotOf c.wave) < c.n) : claimLocked s (slotOf c.wave) = true := by
  simp [claimLocked, wholeGroup, hp, insWave, hi, hst, hc, meetable_of_only hc, hroom]

/-- CLAIMLOCK: the wave wakes, its claim gone, and takes the trap. -/
theorem exec_claimlock_of_locked (hf : focused s = true) (hc : s.g.claims = [c]) (hh : handleOf s.g c.wave = s.w.handle)
    (hl : claimLocked s (slotOf c.wave) = true) :
    exec (.claimlock (slotOf c.wave)) s =
      .next (takeTrap (trapOf causeClaimlock 0) (wake { s with g := { s.g with claims := [] } })) := by
  simp [exec, execClaimlock, hl, hc, withWave, hf, hh]

end Stalled

/-- A stalled claim that its pool can meet: the wave goes on with the units, and the registers that it has claimed read zero. -/
theorem claimGrant_meets {s : State} {c : Claim} (hf : focused s = true) (hp : s.g.peers = []) (hc : s.g.claims = [c])
    (hh : handleOf s.g c.wave = s.w.handle) (hroom : c.n ≤ poolGet s.g c.vector (slotOf c.wave)) :
    Claims.goes .claimGrant s (fun t =>
      t.w.status = .ready ∧ t.w.pc = s.w.pc + 4 ∧ t.g.claims = [] ∧ Claims.keepsMemory s t ∧
      poolGet t.g c.vector (slotOf c.wave) = poolGet s.g c.vector (slotOf c.wave) - c.n ∧
      heldUnits t.w c.vector = heldUnits s.w c.vector + c.n ∧
      ∀ n l, vget t n l =
        if c.vector = true ∧ 8 * s.w.vblocks ≤ n ∧ ¬(s.w.trap.on = true ∧ 112 ≤ n) then 0 else vget s n l) := by
  obtain ⟨hw, hmem, hg⟩ := grantClaim_of_focus hf hp hc hh
  refine ⟨_, exec_claimGrant_of_room hc hroom, ?_, ?_, ?_, ⟨fun a => ?_, fun a => ?_⟩, ?_, ?_, fun n l => ?_⟩
  · rw [hw]; rfl
  · rw [hw]; rfl
  · rw [hg]
  · rw [memByte, hmem]; rfl
  · rw [hg]; exact locByte_poolPut s.g c.vector _ _ a
  · rw [hg]; exact poolGet_poolPut_self s.g c.vector _ _
  · rw [hw]; exact heldUnits_setUnits s.w c.vector _ _
  · refine vget_of_claimed (n := c.n) (by rw [hw]; rfl) ?_ n l
    rw [hw, granted, claimed, setUnits_frame]

/-- A claim that its pool cannot meet, with no other wave on the slot: the wave takes the trap at its claim. -/
theorem claimlock_traps {s : State} {c : Claim} (hf : focused s = true) (hp : s.g.peers = []) (hc : s.g.claims = [c])
    (hh : handleOf s.g c.wave = s.w.handle) (hroom : poolGet s.g c.vector (slotOf c.wave) < c.n)
    (hst : s.w.status = .waiting .claim) (hi : s.w.idx = c.wave) (hlane : s.lane = none) (hon : s.w.trap.on = false)
    (hv : (ctxGet s s.g.ctx).trapvec ≠ 0) :
    Claims.goes (.claimlock (slotOf c.wave)) s (fun t =>
      t.w.trap.on = true ∧ t.w.trap.cause = 0x06 ∧ t.w.trap.pc = s.w.pc ∧ t.g.claims = [] ∧ t.w.vblocks = s.w.vblocks ∧
      t.w.tiles = s.w.tiles) := by
  let u : State := wake { s with g := { s.g with claims := [] } }
  have htake : takeTrap (trapOf causeClaimlock 0) u = trapEntry u (trapOf causeClaimlock 0) :=
    takeTrap_of_entry (s := u) hlane hon hv rfl rfl rfl
  obtain ⟨hton, htcause, -, htpc, -⟩ := trapEntry_w u (trapOf causeClaimlock 0)
  have hexec := exec_claimlock_of_locked hf hc hh (claimLocked_of_only hp hc hst hi hroom)
  refine ⟨_, hexec.trans (congrArg _ htake), hton, htcause, htpc, ?_⟩
  rw [trapEntry_frame]
  exact ⟨rfl, rfl, rfl⟩

/-- Settles O52: the sets of a slot by its three events, the moves of units by gives and claims met at once, and a stalled claim by its two
ends. -/
theorem slotSwapsAndClaims : Obligations.SlotSwapsAndClaims := by
  unfold Obligations.SlotSwapsAndClaims
  intro s die core slot x sets
  refine ⟨fun hdisj => ⟨fun a p hfill ha hp => swapEligible_swaps hdisj hfill ha hp,
    fun a as p hfill ha hp => forcedSwap_swaps hdisj hfill ha hp,
    fun p ps hp hheld hroom => activeSetFill_fills hdisj hp hheld hroom⟩, ?_, ?_⟩
  · intro n hm hon hc hej hn held pool goesOn
    exact ⟨giveUnits_moves (vector := true) hm hej hn, giveUnits_moves (vector := false) hm hej hn,
      claimUnits_moves (vector := true) hm hon hc, claimUnits_moves (vector := false) hm hon hc⟩
  · intro c hown hp hc hh hslot
    have hf : focused s = true := bne_iff_ne.2 hown.1
    subst hslot
    exact ⟨claimGrant_meets hf hp hc hh, claimlock_traps hf hp hc hh⟩

end Sys2Proof.Machine
end
